-- ==== Sys2Proof/Word.lean ====
section
/-! DEFINITION. The word types of the block and the one composite datum, the 8-byte frame (00_scope.md R5, R6, R8;
30_encoding.md R40). -/

namespace Sys2Proof

/-- A byte: 8 bits, bit 0 the least significant (R6, R8). -/
abbrev Byte := BitVec 8

/-- The ENC payload operand: 32 bits (R5 PAYLOAD_WIDTH, R70). -/
abbrev Payload := BitVec 32

/-- The frame, exactly 8 bytes with indices 0..7, in the field order of R40. One type serves a request, a response
and any 8 bytes presented to DEC: "D00 describes one Frame type for both directions" (R49). -/
@[ext]
structure Frame where
  /-- byte 0 -/
  marker   : Byte
  /-- byte 1 -/
  opcode   : Byte
  /-- byte 2 -/
  a        : Byte
  /-- byte 3 -/
  b        : Byte
  /-- byte 4 -/
  c        : Byte
  /-- byte 5 -/
  d        : Byte
  /-- byte 6 -/
  reserved : Byte
  /-- byte 7 -/
  checksum : Byte
deriving DecidableEq, Repr

end Sys2Proof
end

