-- ==== Sys2Proof/Machine/Frame.lean ====
section
/-! DEFINITION. The frame as an indexed object (20_memory.md R31) and as one 64-bit number (00_scope.md R6,
30_encoding.md R40: byte 0 is bits 63:56 and byte 7 is bits 7:0). -/

namespace Sys2Proof.Machine

/-- `F[i]`, byte `i` of a frame, `i` in 0..7 (R7, R31). -/
def byteAt (F : Frame) (i : Fin 8) : Byte :=
  match i with
  | 0 => F.marker
  | 1 => F.opcode
  | 2 => F.a
  | 3 => F.b
  | 4 => F.c
  | 5 => F.d
  | 6 => F.reserved
  | 7 => F.checksum

/-- The frame that differs from `F` at index `i` only, where it holds `v`. -/
def setByte (F : Frame) (i : Fin 8) (v : Byte) : Frame :=
  match i with
  | 0 => { F with marker := v }
  | 1 => { F with opcode := v }
  | 2 => { F with a := v }
  | 3 => { F with b := v }
  | 4 => { F with c := v }
  | 5 => { F with d := v }
  | 6 => { F with reserved := v }
  | 7 => { F with checksum := v }

/-- Bytes 0..6, the ones the checksum covers, in index order (R60). -/
def coveredBytes (F : Frame) : List Byte := [F.marker, F.opcode, F.a, F.b, F.c, F.d, F.reserved]

/-- The frame a 64-bit number stands for (R6, R40). -/
def frameOfWord (w : BitVec 64) : Frame where
  marker   := w.extractLsb' 56 8
  opcode   := w.extractLsb' 48 8
  a        := w.extractLsb' 40 8
  b        := w.extractLsb' 32 8
  c        := w.extractLsb' 24 8
  d        := w.extractLsb' 16 8
  reserved := w.extractLsb' 8 8
  checksum := w.extractLsb' 0 8

/-- The 64-bit number that stands for a frame (R6, R40). -/
def wordOfFrame (F : Frame) : BitVec 64 :=
  F.marker ++ F.opcode ++ F.a ++ F.b ++ F.c ++ F.d ++ F.reserved ++ F.checksum

/-- Eight zero bytes: what the model puts on ports whose strobe is not asserted. -/
def zeroFrame : Frame := ⟨0, 0, 0, 0, 0, 0, 0, 0⟩

end Sys2Proof.Machine
end

