-- ==== Sys2Proof/Machine/Checksum.lean ====
section
/-! DEFINITION. CHECKSUM and VALID (40_checksum.md R60, R61) and the byte-serial form (R62). -/

namespace Sys2Proof.Machine

/-- `CHECKSUM(F)`: the ordinary integer sum of bytes 0..6, its low 8 bits; byte 7 is ignored (R60). -/
def checksum (F : Frame) : Byte :=
  BitVec.ofNat 8 (F.marker.toNat + F.opcode.toNat + F.a.toNat + F.b.toNat + F.c.toNat + F.d.toNat
    + F.reserved.toNat)

/-- `VALID(F)`: byte 7 equals `CHECKSUM(F)`, and nothing else is asked (R61). -/
def valid (F : Frame) : Bool := F.checksum == checksum F

/-- The 8-bit adder that discards every carry out of bit 7, applied to the covered bytes one after another from
0 (R60, R62). -/
def serialChecksum (F : Frame) : Byte := (coveredBytes F).foldl (· + ·) 0

end Sys2Proof.Machine
end

