-- ==== Sys2Proof/Machine/Opcodes.lean ====
section
/-! DEFINITION. The constant bytes of a frame (30_encoding.md R41) and the opcode map (R46, R50). -/

namespace Sys2Proof.Machine

/-- MARKER, the byte `'M'` in index 0 of every frame ENC produces (R5, R41). -/
def markerByte : Byte := 0x4D
/-- RESERVED, the constant in index 6 of every frame ENC produces (R5, R41). -/
def reservedByte : Byte := 0x00

/-- `M`, move-to (R46). -/
def opMoveTo : Byte := 0x4D
/-- `Z`, calibrate-to (R46). -/
def opCalibrateTo : Byte := 0x5A
/-- `H`, stop (R46). -/
def opStop : Byte := 0x48
/-- `P`, read-position (R46). -/
def opReadPosition : Byte := 0x50
/-- `I`, is-moving (R46). -/
def opIsMoving : Byte := 0x49
/-- `T`, read-temperature (R46). -/
def opReadTemperature : Byte := 0x54
/-- `W`, is-calibrated (R46). -/
def opIsCalibrated : Byte := 0x57
/-- `R`, move-with-speed (R46). -/
def opMoveWithSpeed : Byte := 0x52
/-- `G`, park (R46). -/
def opPark : Byte := 0x47
/-- `V`, read-version (R46). -/
def opReadVersion : Byte := 0x56
/-- `!`, the device error unrecognized-command, in responses only (R46, R48). -/
def opUnrecognizedCommand : Byte := 0x21
/-- `?`, the device error bad-checksum, in responses only (R46, R48). -/
def opBadChecksum : Byte := 0x3F

/-- The ten opcode bytes that are legal on the ENC side, in the order of R50. -/
def encodableOpcodes : List Byte :=
  [opPark, opStop, opIsMoving, opMoveTo, opReadPosition, opMoveWithSpeed, opReadTemperature, opReadVersion,
   opIsCalibrated, opCalibrateTo]

/-- Marker and reserved byte are what a well-formed frame carries (R49, R55: the bits every row's mask covers). -/
def hasRowConstants (F : Frame) : Bool := F.marker == markerByte && F.reserved == reservedByte

/-- The 8 bytes match the row of one of the two error sentinels: marker, opcode and reserved byte (R55). -/
def matchesSentinelRow (F : Frame) : Bool :=
  hasRowConstants F && (F.opcode == opUnrecognizedCommand || F.opcode == opBadChecksum)

end Sys2Proof.Machine
end

