-- ==== Sys2Proof/Machine/Operands.lean ====
section
/-! DEFINITION. Operand assembly: the three request layouts POS, ZERO, SPEED (30_encoding.md R42 to R45) and the
frame they complete to (R40, R41, R70). -/

namespace Sys2Proof.Machine

/-- The four payload bytes of a frame, indices 2..5 (R31). -/
structure PayloadBytes where
  a : Byte
  b : Byte
  c : Byte
  d : Byte
deriving DecidableEq, Repr

/-- POS: big-endian bytes of the payload, `a` the most significant (R33, R43). -/
def posLayout (payload : Payload) : PayloadBytes where
  a := payload.extractLsb' 24 8
  b := payload.extractLsb' 16 8
  c := payload.extractLsb' 8 8
  d := payload.extractLsb' 0 8

/-- ZERO: all four bytes zero; the payload is ignored entirely (R44). -/
def zeroLayout (_payload : Payload) : PayloadBytes := ⟨0, 0, 0, 0⟩

/-- SPEED: `d` is the low byte of the payload, the other bits are ignored (R45). -/
def speedLayout (payload : Payload) : PayloadBytes := ⟨0, 0, 0, payload.extractLsb' 0 8⟩

/-- A frame completed from its first seven bytes: byte 7 is their `CHECKSUM` (R60, R70). -/
def sealFrame (marker opcode a b c d reserved : Byte) : Frame :=
  let F : Frame := ⟨marker, opcode, a, b, c, d, reserved, 0⟩
  { F with checksum := checksum F }

/-- The frame ENC builds from an opcode byte and its payload bytes: marker and reserved are constants (R41, R42). -/
def requestFrame (op : Byte) (x : PayloadBytes) : Frame :=
  sealFrame markerByte op x.a x.b x.c x.d reservedByte

/-- A response frame of a sentinel row: constants, the opcode, four payload bytes of any value and the checksum byte
that arrived (R49, R110, R111). -/
def sentinelFrame (op a b c d k : Byte) : Frame := ⟨markerByte, op, a, b, c, d, reservedByte, k⟩

end Sys2Proof.Machine
end

