-- ==== Sys2Proof/Machine/Ports.lean ====
section
/-! DEFINITION. The block's boundary: the input ports (10_state.md R11), what the host can do (30_encoding.md R54,
70_reset_and_hazards.md R161) and the outputs the host can read (R13 to R19, 42_decode.md R93 to R99). -/

namespace Sys2Proof.Machine

/-- The input ports of R11 at one moment: the two start strobes and the operand ports. -/
structure Pins where
  /-- `enc_start` -/
  encStart   : Bool
  /-- `enc_opcode` -/
  encOpcode  : Byte
  /-- `enc_payload` -/
  encPayload : Payload
  /-- `dec_start` -/
  decStart   : Bool
  /-- `dec_bytes[0..7]`, presented together -/
  decBytes   : Frame
deriving DecidableEq, Repr

/-- Everything the host can read: status and result registers, byte by byte, and the views of DF. -/
inductive Output where
  | encStatus
  | ef (i : Fin 8)
  | decStatus
  | df (i : Fin 8)
  | decExpected
  | decActual
  | decMarker
  | decOpcode
  | decA
  | decB
  | decC
  | decD
  | decReserved
  | decChecksum
  | payload32
  | payloadI32
  | hi16
  | hi16S
  | lo16
  | lo16S
  | dBit0
  | dDir
  | dSpeed
  | verMajor
  | verMinor
deriving DecidableEq, Repr

/-- One action of the host. `reset` is never in one action with a start, since a reset is ordered before or after any
step, never inside one (R153; log 7). -/
inductive HostAction where
  /-- asserts `reset` (R150) -/
  | reset
  /-- drives the ports; each unit whose strobe is asserted performs one operation (R11, R37) -/
  | drive (pins : Pins)
  /-- reads one output (R155) -/
  | read (what : Output)
  /-- evaluates the function CHECKSUM on 8 bytes: the model's own way to run the table's row CHECKSUM, which the
  block has no strobe for (R55, R60; log 3) -/
  | evalChecksum (bytes : Frame)
deriving DecidableEq, Repr

end Sys2Proof.Machine
end

