-- ==== Sys2Proof/Syntax.lean ====
section
/-! DEFINITION. The instructions: one constructor per row of spec/opcode_table.json (30_encoding.md R46, R55). The
ten encodable rows are ENCODE operations of ENC and carry the payload operand of R70; the two sentinel rows are
DECODE operations of DEC on a response frame of that row and carry the row's fields a, b, c, d, k; DECODE carries any
8 bytes (R90); CHECKSUM is the shared function on 8 bytes (R60). Which unit a row stands for is log 8. -/

namespace Sys2Proof

/-- The rows of the opcode table, under the names of R46. -/
inductive Instr where
  /-- `M` (R72) -/
  | moveTo (payload : Payload)
  /-- `Z` (R73) -/
  | calibrateTo (payload : Payload)
  /-- `H` (R74) -/
  | stop (payload : Payload)
  /-- `P` (R75) -/
  | readPosition (payload : Payload)
  /-- `I` (R76) -/
  | isMoving (payload : Payload)
  /-- `T` (R77) -/
  | readTemperature (payload : Payload)
  /-- `W` (R78) -/
  | isCalibrated (payload : Payload)
  /-- `R` (R79) -/
  | moveWithSpeed (payload : Payload)
  /-- `G` (R80) -/
  | park (payload : Payload)
  /-- `V` (R81) -/
  | readVersion (payload : Payload)
  /-- `!` (R110) -/
  | unrecognizedCommand (a b c d k : Byte)
  /-- `?` (R111) -/
  | badChecksum (a b c d k : Byte)
  /-- `DECODE` (R90) -/
  | decode (bytes : Frame)
  /-- `CHECKSUM` (R60) -/
  | checksum (bytes : Frame)
deriving DecidableEq, Repr

end Sys2Proof
end

