-- ==== Sys2Proof/WellFormed.lean ====
section
/-! DEFINITION. Well-formed instructions. Every operand value of every row is legal: all payloads (30_encoding.md R43,
R44, R45), all 8-byte arrays (R51). The one check keeps two spellings of one thing apart: 8 bytes that match the row of
a sentinel are written with the sentinel's constructor, not with `decode`. -/

namespace Sys2Proof

/-- The check on each constructor. -/
def Instr.wellFormed : Instr → Bool
  | .moveTo _ => true
  | .calibrateTo _ => true
  | .stop _ => true
  | .readPosition _ => true
  | .isMoving _ => true
  | .readTemperature _ => true
  | .isCalibrated _ => true
  | .moveWithSpeed _ => true
  | .park _ => true
  | .readVersion _ => true
  | .unrecognizedCommand _ _ _ _ _ => true
  | .badChecksum _ _ _ _ _ => true
  | .decode B => !Machine.matchesSentinelRow B
  | .checksum _ => true

end Sys2Proof
end

