-- ==== Sys2Proof/Decode.lean ====
section
/-! DEFINITION. The decoder and the encoder. What selects an operation on this hardware is which start strobe the host
asserts and, for ENC, the opcode byte (00_scope.md R1, 10_state.md R11): `decodeEnc` and `decodeDec` read the ports of
one unit, `started` a whole host action, and `encode` drives the ports that start an instruction. Beside them stands
the reading of a table word, the 64-bit packing of opcode_table.json (30_encoding.md R55). -/

namespace Sys2Proof

open Machine

/-- Why a decoder gives no instruction. -/
inductive DecodeReject where
  /-- an opcode byte that is illegal on the ENC side (R50, R82) -/
  | unsupportedOpcode (op : Byte)
deriving DecidableEq, Repr

/-- What a decoder reads: an instruction or a rejection by name. -/
inductive Decoded where
  | instr (i : Instr)
  | reject (r : DecodeReject)
deriving DecidableEq, Repr

/-- The ENC decoder: total on the 256 opcode bytes; the ten of R50 select an instruction, the other 246 are rejected
(R46, R50). -/
def decodeEnc (op : Byte) (payload : Payload) : Decoded :=
  if op = opMoveTo then .instr (.moveTo payload)
  else if op = opCalibrateTo then .instr (.calibrateTo payload)
  else if op = opStop then .instr (.stop payload)
  else if op = opReadPosition then .instr (.readPosition payload)
  else if op = opIsMoving then .instr (.isMoving payload)
  else if op = opReadTemperature then .instr (.readTemperature payload)
  else if op = opIsCalibrated then .instr (.isCalibrated payload)
  else if op = opMoveWithSpeed then .instr (.moveWithSpeed payload)
  else if op = opPark then .instr (.park payload)
  else if op = opReadVersion then .instr (.readVersion payload)
  else .reject (.unsupportedOpcode op)

/-- The DEC decoder: no 8-byte array is illegal (R51). It names the two sentinel rows; their meanings are the same
DEC operation as any other (R92). -/
def decodeDec (B : Frame) : Instr :=
  if hasRowConstants B then
    if B.opcode = opUnrecognizedCommand then .unrecognizedCommand B.a B.b B.c B.d B.checksum
    else if B.opcode = opBadChecksum then .badChecksum B.a B.b B.c B.d B.checksum
    else .decode B
  else .decode B

/-- The operations a host action starts, ENC's before DEC's (R11; the order has no effect, R37, log 10). -/
def started : HostAction → List Decoded
  | .reset => []
  | .drive p =>
    (if p.encStart then [decodeEnc p.encOpcode p.encPayload] else [])
      ++ (if p.decStart then [.instr (decodeDec p.decBytes)] else [])
  | .read _ => []
  | .evalChecksum B => [.instr (.checksum B)]

/-- The ports that start ENC alone. -/
def driveEnc (op : Byte) (payload : Payload) : HostAction := .drive ⟨true, op, payload, false, zeroFrame⟩

/-- The ports that start DEC alone. -/
def driveDec (B : Frame) : HostAction := .drive ⟨false, 0, 0, true, B⟩

/-- The encoder: the host action that starts exactly this instruction (R11, R46, R49). -/
def encode : Instr → HostAction
  | .moveTo payload => driveEnc opMoveTo payload
  | .calibrateTo payload => driveEnc opCalibrateTo payload
  | .stop payload => driveEnc opStop payload
  | .readPosition payload => driveEnc opReadPosition payload
  | .isMoving payload => driveEnc opIsMoving payload
  | .readTemperature payload => driveEnc opReadTemperature payload
  | .isCalibrated payload => driveEnc opIsCalibrated payload
  | .moveWithSpeed payload => driveEnc opMoveWithSpeed payload
  | .park payload => driveEnc opPark payload
  | .readVersion payload => driveEnc opReadVersion payload
  | .unrecognizedCommand a b c d k => driveDec (sentinelFrame opUnrecognizedCommand a b c d k)
  | .badChecksum a b c d k => driveDec (sentinelFrame opBadChecksum a b c d k)
  | .decode B => driveDec B
  | .checksum B => .evalChecksum B

/-- The payload bytes of a frame read as the 32-bit operand (R43). -/
def payloadOperand (F : Frame) : Payload := F.a ++ F.b ++ F.c ++ F.d

/-- All four payload bytes are zero, as the mask of a ZERO row asks (R55). -/
def zeroPayloadBytes (F : Frame) : Bool := F.a == 0 && F.b == 0 && F.c == 0 && F.d == 0

/-- Bytes a, b, c are zero, as the mask of the SPEED row asks (R55). -/
def zeroUpperBytes (F : Frame) : Bool := F.a == 0 && F.b == 0 && F.c == 0

/-- The seven ZERO rows by their opcode byte (R46). -/
def zeroRowInstr (op : Byte) : Option Instr :=
  if op = opStop then some (.stop 0)
  else if op = opReadPosition then some (.readPosition 0)
  else if op = opIsMoving then some (.isMoving 0)
  else if op = opReadTemperature then some (.readTemperature 0)
  else if op = opIsCalibrated then some (.isCalibrated 0)
  else if op = opPark then some (.park 0)
  else if op = opReadVersion then some (.readVersion 0)
  else none

/-- The request rows of the table by match and mask (R55): the ENC operation whose row the 8 bytes match, with the
operand that stands in the row's payload fields. Match and mask cannot express byte 7; `readRequestFrame` adds it. -/
def matchRequestRow (F : Frame) : Option Instr :=
  if hasRowConstants F = false then none
  else if F.opcode = opMoveTo then some (.moveTo (payloadOperand F))
  else if F.opcode = opCalibrateTo then some (.calibrateTo (payloadOperand F))
  else if F.opcode = opMoveWithSpeed then
    if zeroUpperBytes F then some (.moveWithSpeed (payloadOperand F)) else none
  else if zeroPayloadBytes F then zeroRowInstr F.opcode
  else none

/-- The request rows read as R55 asks of a decoder written from the table: match and mask and, in addition, `VALID`
(R55, R56). -/
def readRequestFrame (F : Frame) : Option Instr := if valid F then matchRequestRow F else none

/-- The instruction a table word stands for: a request row with its right checksum, else a sentinel row, else the row
DECODE, whose mask is 0 (R55). A sentinel row keeps byte 7 as its operand k and DEC applies `VALID` to it (R90); a
request row with a wrong byte 7 is no frame of that row and is read as DECODE. The row CHECKSUM has the same mask and
match as DECODE and no word of its own (log 9). -/
def instrOfWord (w : BitVec 64) : Instr :=
  match readRequestFrame (frameOfWord w) with
  | some i => i
  | none => decodeDec (frameOfWord w)

/-- The 64-bit table word of an instruction, byte 0 in bits 63:56: for an ENC operation the frame it produces, for a
DEC operation the bytes it is given (R40, R55). -/
def tableFrame : Instr → Frame
  | .moveTo payload => requestFrame opMoveTo (posLayout payload)
  | .calibrateTo payload => requestFrame opCalibrateTo (posLayout payload)
  | .stop payload => requestFrame opStop (zeroLayout payload)
  | .readPosition payload => requestFrame opReadPosition (zeroLayout payload)
  | .isMoving payload => requestFrame opIsMoving (zeroLayout payload)
  | .readTemperature payload => requestFrame opReadTemperature (zeroLayout payload)
  | .isCalibrated payload => requestFrame opIsCalibrated (zeroLayout payload)
  | .moveWithSpeed payload => requestFrame opMoveWithSpeed (speedLayout payload)
  | .park payload => requestFrame opPark (zeroLayout payload)
  | .readVersion payload => requestFrame opReadVersion (zeroLayout payload)
  | .unrecognizedCommand a b c d k => sentinelFrame opUnrecognizedCommand a b c d k
  | .badChecksum a b c d k => sentinelFrame opBadChecksum a b c d k
  | .decode B => B
  | .checksum B => B

/-- The instructions a table word can stand for: the payload bits are ones the row carries, the 8 bytes of a DECODE
read as no other row, and CHECKSUM has no word of its own. -/
def hasTableWord : Instr → Bool
  | .moveTo _ => true
  | .calibrateTo _ => true
  | .stop payload => payload == 0
  | .readPosition payload => payload == 0
  | .isMoving payload => payload == 0
  | .readTemperature payload => payload == 0
  | .isCalibrated payload => payload == 0
  | .moveWithSpeed payload => payload.extractLsb' 8 24 == 0
  | .park payload => payload == 0
  | .readVersion payload => payload == 0
  | .unrecognizedCommand _ _ _ _ _ => true
  | .badChecksum _ _ _ _ _ => true
  | .decode B => !matchesSentinelRow B && (readRequestFrame B).isNone
  | .checksum _ => false

/-- The instruction the decoder reads from an opcode-table word of 64 bits (R40). DESIGN CHOICE (log 9): R40 knows 64
bits only; a word given with fewer is read as the 64-bit word of the same number, its leading bits and so its leading
bytes zero; bits of `w` at `nbits` and above are for the caller to leave zero; more than 64 bits is no frame. -/
def decodeTableWord (nbits w : Nat) : Option Instr :=
  if nbits ≤ 64 then some (instrOfWord (BitVec.ofNat 64 w)) else none

/-- One row of opcode_table.json: its mnemonic, match and mask. -/
structure TableRow where
  mnemonic : String
  pattern  : BitVec 64
  mask     : BitVec 64
deriving DecidableEq, Repr

/-- The twelve rows with an opcode byte, in the table's order (opcode_table.json). -/
def opcodeRows : List TableRow :=
  [⟨"M", 0x4D4D000000000000, 0xFFFF00000000FF00⟩,
   ⟨"Z", 0x4D5A000000000000, 0xFFFF00000000FF00⟩,
   ⟨"H", 0x4D48000000000000, 0xFFFFFFFFFFFFFF00⟩,
   ⟨"P", 0x4D50000000000000, 0xFFFFFFFFFFFFFF00⟩,
   ⟨"I", 0x4D49000000000000, 0xFFFFFFFFFFFFFF00⟩,
   ⟨"T", 0x4D54000000000000, 0xFFFFFFFFFFFFFF00⟩,
   ⟨"W", 0x4D57000000000000, 0xFFFFFFFFFFFFFF00⟩,
   ⟨"R", 0x4D52000000000000, 0xFFFFFFFFFF00FF00⟩,
   ⟨"G", 0x4D47000000000000, 0xFFFFFFFFFFFFFF00⟩,
   ⟨"V", 0x4D56000000000000, 0xFFFFFFFFFFFFFF00⟩,
   ⟨"!", 0x4D21000000000000, 0xFFFF00000000FF00⟩,
   ⟨"?", 0x4D3F000000000000, 0xFFFF00000000FF00⟩]

/-- The table's mnemonic of an instruction. -/
def mnemonicOf : Instr → String
  | .moveTo _ => "M"
  | .calibrateTo _ => "Z"
  | .stop _ => "H"
  | .readPosition _ => "P"
  | .isMoving _ => "I"
  | .readTemperature _ => "T"
  | .isCalibrated _ => "W"
  | .moveWithSpeed _ => "R"
  | .park _ => "G"
  | .readVersion _ => "V"
  | .unrecognizedCommand _ _ _ _ _ => "!"
  | .badChecksum _ _ _ _ _ => "?"
  | .decode _ => "DECODE"
  | .checksum _ => "CHECKSUM"

end Sys2Proof
end

