-- ==== Sys2Proof/Machine/Codec.lean ====
section
/-! DEFINITION. The two pure functions of the block, ENCODE (41_encode.md R70) and DECODE (42_decode.md R90), and
their two faults (60_exceptions.md R130). -/

namespace Sys2Proof.Machine

/-- The two synchronous faults of the block, which are RESULTS in its registers and never stop it (R130, R134). -/
inductive BlockFault where
  /-- ENCODE with an opcode byte outside the ten (R82). -/
  | unsupportedOpcode (op : Byte)
  /-- DECODE of bytes whose byte 7 is not their checksum (R90). -/
  | checksumError (expected actual : Byte)
deriving DecidableEq, Repr

/-- `ENCODE(op, payload)`: the case analysis of R70 on the opcode byte. -/
def encodeFrame (op : Byte) (payload : Payload) : Except BlockFault Frame :=
  if op = opMoveTo ∨ op = opCalibrateTo then .ok (requestFrame op (posLayout payload))
  else if op = opStop ∨ op = opReadPosition ∨ op = opIsMoving ∨ op = opReadTemperature ∨ op = opIsCalibrated
      ∨ op = opPark ∨ op = opReadVersion then .ok (requestFrame op (zeroLayout payload))
  else if op = opMoveWithSpeed then .ok (requestFrame op (speedLayout payload))
  else .error (.unsupportedOpcode op)

/-- `DECODE(B)`: the same 8 bytes where byte 7 is their checksum, otherwise the fault with the computed and the
received byte (R90). Nothing but the checksum is looked at (R92). -/
def decodeFrame (B : Frame) : Except BlockFault Frame :=
  if B.checksum = checksum B then .ok B else .error (.checksumError (checksum B) B.checksum)

end Sys2Proof.Machine
end

