-- ==== Sys2Proof/Machine/State.lean ====
section
/-! DEFINITION. The state of the block (10_state.md R13 to R19, R22, R25), what can stop the machine, and reset (R24,
70_reset_and_hazards.md R150). "No value" (R12) is `none`: the spec's own state of a register. -/

namespace Sys2Proof.Machine

/-- ENC_STATUS (R13). Code 3 is never produced, so there is no constructor for it (93 U8, 92 D26). -/
inductive EncStatus where
  /-- code 0, no ENCODE has completed since reset -/
  | idle
  /-- code 1, the last ENCODE produced a frame -/
  | ok
  /-- code 2, the last ENCODE failed with UnsupportedOpcode -/
  | errUnsupported
deriving DecidableEq, Repr

/-- DEC_STATUS (R16). -/
inductive DecStatus where
  /-- code 0, no DECODE has completed since reset -/
  | idle
  /-- code 1, the last DECODE found a valid frame -/
  | ok
  /-- code 2, the last DECODE failed with ChecksumError -/
  | errChecksum
deriving DecidableEq, Repr

/-- Faults that STOP the machine: there are none. "The block never halts" (R161); its two faults are results in its
registers (R134) and are `BlockFault` in Machine/Codec.lean. Log 5; safe. -/
inductive Fault
deriving DecidableEq, Repr

/-- Why a step is refused. -/
inductive Refusal where
  /-- Raised by `exec` for an instruction without a meaning; no arm raises it. Safe. -/
  | notModelled (mnemonic : String)
  /-- Raised by a host read of an output whose register holds no value: the host must not read it (R12, R155), and
  the spec's treatment of such a read is to refuse it (93 U7). Safe. -/
  | readOfNoValue (what : Output)
deriving DecidableEq, Repr

/-- The architectural registers of the block, and two fields of the model's own. -/
@[ext]
structure State where
  /-- ENC_STATUS (R13) -/
  encStatus   : EncStatus
  /-- EF[0..7] (R14); `none` is no value (R15) -/
  ef          : Option Frame
  /-- DEC_STATUS (R16) -/
  decStatus   : DecStatus
  /-- DF[0..7] (R17); `none` is no value (R18) -/
  df          : Option Frame
  /-- DEC_EXPECTED (R19) -/
  decExpected : Option Byte
  /-- DEC_ACTUAL (R19) -/
  decActual   : Option Byte
  /-- the MODEL's own: the host's coming actions, oldest first (R11, R161; log 1) -/
  pending     : List HostAction
  /-- the MODEL's own: the number last handed to the host by a read or by CHECKSUM (log 3) -/
  hostSeen    : Option Int
deriving DecidableEq, Repr

/-- The machine after reset, and at power-up (R24, R150): both status registers idle, every result register without
a value; the model's own list is empty and nothing has been handed to the host. -/
def State.reset : State where
  encStatus   := .idle
  ef          := none
  decStatus   := .idle
  df          := none
  decExpected := none
  decActual   := none
  pending     := []
  hostSeen    := none

end Sys2Proof.Machine
end

