-- ==== Sys2Proof/Machine/Flags.lean ====
section
/-! DEFINITION. The status codes. The block has no flag besides its two status registers (10_state.md R20); these are
their 2-bit codes (R13, R16). -/

namespace Sys2Proof.Machine

/-- The 2-bit code of ENC_STATUS (R13). -/
def encCode : EncStatus → BitVec 2
  | .idle => 0
  | .ok => 1
  | .errUnsupported => 2

/-- The 2-bit code of DEC_STATUS (R16). -/
def decCode : DecStatus → BitVec 2
  | .idle => 0
  | .ok => 1
  | .errChecksum => 2

end Sys2Proof.Machine
end

