-- ==== Sys2Proof/Machine/Views.lean ====
section
/-! DEFINITION. The field views of a decoded frame (42_decode.md R93 to R99) and what a valid response of each opcode
delivers to its consumer (R100 to R112). The named fields DEC_MARKER .. DEC_CHECKSUM of R93 are the fields of `Frame`
themselves. -/

namespace Sys2Proof.Machine

/-- `PAYLOAD32 = DEC_A ++ DEC_B ++ DEC_C ++ DEC_D` (R94). -/
def payload32 (F : Frame) : BitVec 32 := F.a ++ F.b ++ F.c ++ F.d
/-- `PAYLOAD_I32 = signed(PAYLOAD32)` (R95). -/
def payloadI32 (F : Frame) : Int := (payload32 F).toInt
/-- `HI16 = DEC_A ++ DEC_B` (R96). -/
def hi16 (F : Frame) : BitVec 16 := F.a ++ F.b
/-- `HI16_S = signed(HI16)` (R96). -/
def hi16S (F : Frame) : Int := (hi16 F).toInt
/-- `LO16 = DEC_C ++ DEC_D` (R97). -/
def lo16 (F : Frame) : BitVec 16 := F.c ++ F.d
/-- `LO16_S = signed(LO16)` (R97). -/
def lo16S (F : Frame) : Int := (lo16 F).toInt
/-- `D_BIT0 = DEC_D[0]` (R98). -/
def dBit0 (F : Frame) : BitVec 1 := F.d.extractLsb' 0 1
/-- `D_DIR = DEC_D[7]` (R99). -/
def dDir (F : Frame) : BitVec 1 := F.d.extractLsb' 7 1
/-- `D_SPEED = DEC_D[6:0]` (R99). -/
def dSpeed (F : Frame) : BitVec 7 := F.d.extractLsb' 0 7
/-- `VER_MAJOR = DEC_C` (R99). -/
def verMajor (F : Frame) : Byte := F.c
/-- `VER_MINOR = DEC_D` (R99). -/
def verMinor (F : Frame) : Byte := F.d

/-- What the consumer of a valid response reads, by its opcode (R49, R100 to R112). -/
inductive Delivery where
  /-- `M`, `Z`: the echoed target (R100, R101). -/
  | echoedTarget (target : Int)
  /-- `P`: the position in ticks (R103). -/
  | position (ticks : Int)
  /-- `I`: the moving flag, 1 = moving (R98, R104). -/
  | moving (flag : BitVec 1)
  /-- `T`: humidity x 10 and temperature x 10 (R105). -/
  | environment (humidityX10 temperatureX10 : Int)
  /-- `W`: the absolute flag, 1 = absolute (R98, R106). -/
  | absolute (flag : BitVec 1)
  /-- `R`: the echoed `d` with its two parts (R107). -/
  | echoedSpeed (d : Byte) (dir : BitVec 1) (speed : BitVec 7)
  /-- `V`: the two version bytes, raw (R99, R109). -/
  | version (major minor : Byte)
  /-- `H`, `G`: nothing beyond the opcode (R102, R108). -/
  | opcodeOnly
  /-- `!`: the device error; the payload is undefined and none of it is handed on (R110). -/
  | deviceUnrecognizedCommand
  /-- `?`: the device error; the payload is undefined and none of it is handed on (R111). -/
  | deviceBadChecksum
  /-- Any other opcode byte (R112). -/
  | otherOpcode (opcode : Byte)
deriving DecidableEq, Repr

/-- The views a valid response delivers, chosen by the CONSUMER from the opcode; DEC itself does not look at it
(R49, R92, R100 to R112; log 12). -/
def delivered (F : Frame) : Delivery :=
  if F.opcode = opMoveTo then .echoedTarget (payloadI32 F)
  else if F.opcode = opCalibrateTo then .echoedTarget (payloadI32 F)
  else if F.opcode = opStop then .opcodeOnly
  else if F.opcode = opReadPosition then .position (payloadI32 F)
  else if F.opcode = opIsMoving then .moving (dBit0 F)
  else if F.opcode = opReadTemperature then .environment (hi16S F) (lo16S F)
  else if F.opcode = opIsCalibrated then .absolute (dBit0 F)
  else if F.opcode = opMoveWithSpeed then .echoedSpeed F.d (dDir F) (dSpeed F)
  else if F.opcode = opPark then .opcodeOnly
  else if F.opcode = opReadVersion then .version (verMajor F) (verMinor F)
  else if F.opcode = opUnrecognizedCommand then .deviceUnrecognizedCommand
  else if F.opcode = opBadChecksum then .deviceBadChecksum
  else .otherOpcode F.opcode

end Sys2Proof.Machine
end

