-- ==== Sys2Proof/Machine/Ops.lean ====
section
/-! DEFINITION. The named operations over the registers: delivering a result, raising a fault, reset, reading an
output. Every instruction's meaning is one of these. -/

namespace Sys2Proof.Machine

/-- An outcome of this machine. -/
abbrev Result := Host.Outcome State Fault Refusal

/-- Writes of a successful ENCODE (R71): EF takes the frame, ENC_STATUS the code ENC_OK. -/
def State.encDeliver (s : State) (F : Frame) : State := { s with ef := some F, encStatus := .ok }

/-- Writes of a successful DECODE (R91): DF takes the bytes, the two diagnostic registers lose their value. -/
def State.decDeliver (s : State) (F : Frame) : State :=
  { s with df := some F, decExpected := none, decActual := none, decStatus := .ok }

/-- `raise <Fault>(info)`, the one way a fault is taken (60_exceptions.md R134): the register writes of R71 or R91 and
nothing else. No control is transferred, nothing is saved. There is no return from it: the code stands until the same
unit's next operation or reset overwrites it (R135). -/
def State.raise (s : State) : BlockFault → State
  | .unsupportedOpcode _ => { s with ef := none, encStatus := .errUnsupported }
  | .checksumError expected actual =>
    { s with df := none, decExpected := some expected, decActual := some actual, decStatus := .errChecksum }

/-- `RESET` (70_reset_and_hazards.md R150): exactly the writes that rule lists; the model's own two fields stay
(log 11). -/
def State.resetUnits (s : State) : State :=
  { s with encStatus := .idle, decStatus := .idle, ef := none, df := none, decExpected := none, decActual := none }

/-- A number is handed to the host (the model's own field, log 3). -/
def State.handToHost (s : State) (v : Int) : State := { s with hostSeen := some v }

/-- The host's coming actions are replaced (the model's own field, log 1). -/
def State.withPending (s : State) (as : List HostAction) : State := { s with pending := as }

/-- ENC's shared operation: the opcode's layout is completed to a frame and delivered (R70, R71). -/
def encStep (op : Byte) (x : PayloadBytes) (s : State) : Result := .next (s.encDeliver (requestFrame op x))

/-- DEC's shared operation (R91): deliver what DECODE returns, or raise its fault. -/
def decStep (B : Frame) (s : State) : Result :=
  match decodeFrame B with
  | .ok F => .next (s.decDeliver F)
  | .error f => .next (s.raise f)

/-- The number an output shows, `none` where its register holds no value (R12). Bytes and unsigned views as unsigned
numbers (R6, R7); PAYLOAD_I32, HI16_S and LO16_S as signed ones (R95 to R97). -/
def readOutput (what : Output) (s : State) : Option Int :=
  match what with
  | .encStatus => some (encCode s.encStatus).toNat
  | .ef i => s.ef.map fun F => (byteAt F i).toNat
  | .decStatus => some (decCode s.decStatus).toNat
  | .df i => s.df.map fun F => (byteAt F i).toNat
  | .decExpected => s.decExpected.map fun e => e.toNat
  | .decActual => s.decActual.map fun x => x.toNat
  | .decMarker => s.df.map fun F => F.marker.toNat
  | .decOpcode => s.df.map fun F => F.opcode.toNat
  | .decA => s.df.map fun F => F.a.toNat
  | .decB => s.df.map fun F => F.b.toNat
  | .decC => s.df.map fun F => F.c.toNat
  | .decD => s.df.map fun F => F.d.toNat
  | .decReserved => s.df.map fun F => F.reserved.toNat
  | .decChecksum => s.df.map fun F => F.checksum.toNat
  | .payload32 => s.df.map fun F => (payload32 F).toNat
  | .payloadI32 => s.df.map payloadI32
  | .hi16 => s.df.map fun F => (hi16 F).toNat
  | .hi16S => s.df.map hi16S
  | .lo16 => s.df.map fun F => (lo16 F).toNat
  | .lo16S => s.df.map lo16S
  | .dBit0 => s.df.map fun F => (dBit0 F).toNat
  | .dDir => s.df.map fun F => (dDir F).toNat
  | .dSpeed => s.df.map fun F => (dSpeed F).toNat
  | .verMajor => s.df.map fun F => (verMajor F).toNat
  | .verMinor => s.df.map fun F => (verMinor F).toNat

/-- The tag under which the host may read an output (R155): the status registers at any time, EF under ENC_OK, DF and
the views under DEC_OK, DEC_EXPECTED and DEC_ACTUAL under DEC_ERR_CHECKSUM. -/
def readAllowed (what : Output) (s : State) : Bool :=
  match what with
  | .encStatus => true
  | .ef _ => s.encStatus == .ok
  | .decStatus => true
  | .decExpected => s.decStatus == .errChecksum
  | .decActual => s.decStatus == .errChecksum
  | .df _ => s.decStatus == .ok
  | .decMarker => s.decStatus == .ok
  | .decOpcode => s.decStatus == .ok
  | .decA => s.decStatus == .ok
  | .decB => s.decStatus == .ok
  | .decC => s.decStatus == .ok
  | .decD => s.decStatus == .ok
  | .decReserved => s.decStatus == .ok
  | .decChecksum => s.decStatus == .ok
  | .payload32 => s.decStatus == .ok
  | .payloadI32 => s.decStatus == .ok
  | .hi16 => s.decStatus == .ok
  | .hi16S => s.decStatus == .ok
  | .lo16 => s.decStatus == .ok
  | .lo16S => s.decStatus == .ok
  | .dBit0 => s.decStatus == .ok
  | .dDir => s.decStatus == .ok
  | .dSpeed => s.decStatus == .ok
  | .verMajor => s.decStatus == .ok
  | .verMinor => s.decStatus == .ok

/-- A host read: it has no side effect on the block (20_memory.md R36) and hands the number to the host; a register
without a value is refused (R12, R155, 93 U7). -/
def hostRead (what : Output) (s : State) : Result :=
  match readOutput what s with
  | some v => .next (s.handToHost v)
  | none => .refused (.readOfNoValue what)

end Sys2Proof.Machine
end

