-- ==== Sys2Proof/Machine/ChecksumFn.lean ====
section
/-! DEFINITION. The row CHECKSUM: the shared function evaluated by itself (40_checksum.md R60). It writes no register
and no flag of the block; its result, one byte, is handed to the host (log 3). -/

namespace Sys2Proof.Machine

/-- `CHECKSUM` (R60). -/
def execChecksum (B : Frame) (s : State) : Result := .next (s.handToHost (checksum B).toNat)

end Sys2Proof.Machine
end

