-- ==== Sys2Proof/Machine/DecFrame.lean ====
section
/-! DEFINITION. The operations of DEC: any 8 bytes (42_decode.md R90, R91), and the two sentinel rows, which DEC does
not treat specially (R92, R110, R111). -/

namespace Sys2Proof.Machine

/-- `DECODE` (R90, R91). -/
def execDecode (B : Frame) (s : State) : Result := decStep B s

/-- `!`, the response unrecognized-command presented to DEC (R110). -/
def execUnrecognizedCommand (a b c d k : Byte) (s : State) : Result :=
  decStep (sentinelFrame opUnrecognizedCommand a b c d k) s

/-- `?`, the response bad-checksum presented to DEC (R111). -/
def execBadChecksum (a b c d k : Byte) (s : State) : Result := decStep (sentinelFrame opBadChecksum a b c d k) s

end Sys2Proof.Machine
end

