-- ==== Sys2Proof/Machine/EncPosition.lean ====
section
/-! DEFINITION. The position-bearing opcodes of ENC, format POS (41_encode.md R72, R73). -/

namespace Sys2Proof.Machine

/-- `M`, move-to (R72). -/
def execMoveTo (payload : Payload) (s : State) : Result := encStep opMoveTo (posLayout payload) s

/-- `Z`, calibrate-to (R73). -/
def execCalibrateTo (payload : Payload) (s : State) : Result := encStep opCalibrateTo (posLayout payload) s

end Sys2Proof.Machine
end

