-- ==== Sys2Proof/Machine/EncSpeed.lean ====
section
/-! DEFINITION. The speed/direction opcode of ENC, format SPEED (41_encode.md R79). -/

namespace Sys2Proof.Machine

/-- `R`, move-with-speed (R79). -/
def execMoveWithSpeed (payload : Payload) (s : State) : Result := encStep opMoveWithSpeed (speedLayout payload) s

end Sys2Proof.Machine
end

