-- ==== Sys2Proof/Machine/EncZero.lean ====
section
/-! DEFINITION. The zero-payload opcodes of ENC, format ZERO (41_encode.md R74 to R78, R80, R81). -/

namespace Sys2Proof.Machine

/-- `H`, stop (R74). -/
def execStop (payload : Payload) (s : State) : Result := encStep opStop (zeroLayout payload) s

/-- `P`, read-position (R75). -/
def execReadPosition (payload : Payload) (s : State) : Result := encStep opReadPosition (zeroLayout payload) s

/-- `I`, is-moving (R76). -/
def execIsMoving (payload : Payload) (s : State) : Result := encStep opIsMoving (zeroLayout payload) s

/-- `T`, read-temperature (R77). -/
def execReadTemperature (payload : Payload) (s : State) : Result := encStep opReadTemperature (zeroLayout payload) s

/-- `W`, is-calibrated (R78). -/
def execIsCalibrated (payload : Payload) (s : State) : Result := encStep opIsCalibrated (zeroLayout payload) s

/-- `G`, park (R80). -/
def execPark (payload : Payload) (s : State) : Result := encStep opPark (zeroLayout payload) s

/-- `V`, read-version (R81). -/
def execReadVersion (payload : Payload) (s : State) : Result := encStep opReadVersion (zeroLayout payload) s

end Sys2Proof.Machine
end

