-- ==== Sys2Proof/Machine/Dispatch.lean ====
section
/-! DEFINITION. One arm per constructor of Instr. -/

namespace Sys2Proof.Machine

def exec (i : Instr) (s : State) : Host.Outcome State Fault Refusal :=
  match i with
  | .moveTo payload => Sys2Proof.Machine.execMoveTo payload s
  | .calibrateTo payload => Sys2Proof.Machine.execCalibrateTo payload s
  | .stop payload => Sys2Proof.Machine.execStop payload s
  | .readPosition payload => Sys2Proof.Machine.execReadPosition payload s
  | .isMoving payload => Sys2Proof.Machine.execIsMoving payload s
  | .readTemperature payload => Sys2Proof.Machine.execReadTemperature payload s
  | .isCalibrated payload => Sys2Proof.Machine.execIsCalibrated payload s
  | .moveWithSpeed payload => Sys2Proof.Machine.execMoveWithSpeed payload s
  | .park payload => Sys2Proof.Machine.execPark payload s
  | .readVersion payload => Sys2Proof.Machine.execReadVersion payload s
  | .unrecognizedCommand a b c d k => Sys2Proof.Machine.execUnrecognizedCommand a b c d k s
  | .badChecksum a b c d k => Sys2Proof.Machine.execBadChecksum a b c d k s
  | .decode bytes => Sys2Proof.Machine.execDecode bytes s
  | .checksum bytes => Sys2Proof.Machine.execChecksum bytes s

end Sys2Proof.Machine
end

