-- ==== Sys2Proof/Machine/Units.lean ====
section
/-! DEFINITION. What one host action does to the block (10_state.md R11, 70_reset_and_hazards.md R150, R155): the
decoded operations run in turn, an illegal opcode raises UnsupportedOpcode, a reset resets, a read reads. -/

namespace Sys2Proof.Machine

/-- One decoded operation: an instruction is executed, an opcode outside the ten raises its fault (R71, R82). -/
def runDecoded (d : Decoded) (s : State) : Result :=
  match d with
  | .instr i => exec i s
  | .reject (.unsupportedOpcode op) => .next (s.raise (.unsupportedOpcode op))

/-- The operations one action starts, one after another. They are at most one of ENC and one of DEC, which share no
state, so the order has no effect (R10, R37). -/
def runStarted : List Decoded → State → Result
  | [], s => .next s
  | d :: ds, s =>
    match runDecoded d s with
    | .next t => runStarted ds t
    | .fault r => .fault r
    | .refused r => .refused r

/-- The ENC step of R71 on the values of its ports. -/
def encUnit (op : Byte) (payload : Payload) (s : State) : Result := runDecoded (decodeEnc op payload) s

/-- The DEC step of R91 on the bytes at its port. -/
def decUnit (B : Frame) (s : State) : Result := runDecoded (.instr (decodeDec B)) s

/-- One action of the host. -/
def runAction (act : HostAction) (s : State) : Result :=
  match act with
  | .reset => .next s.resetUnits
  | .read what => hostRead what s
  | .drive p => runStarted (started (.drive p)) s
  | .evalChecksum B => runStarted (started (.evalChecksum B)) s

/-- The oldest pending action is taken and performed; with none pending no strobe is asserted and nothing changes
(R71, R91, R161; log 1). -/
def stepPending (s : State) : Result :=
  match s.pending with
  | [] => .next s
  | act :: rest => runAction act (s.withPending rest)

/-- The state in which the instruction a table word stands for is the host's next action. -/
def placeTableWord (s : State) (nbits w : Nat) : State :=
  match decodeTableWord nbits w with
  | some i => s.withPending (encode i :: s.pending)
  | none => s

end Sys2Proof.Machine
end

