-- ==== Sys2Proof/Machine/Step.lean ====
section
/-! DEFINITION. The step: one host action (20_memory.md R36, 70_reset_and_hazards.md R161). The block has no program
counter and fetches nothing (10_state.md R21); an instruction comes from the host's list of actions (log 1). -/

namespace Sys2Proof.Machine

/-- One step. -/
def step (s : State) : Host.Outcome State Fault Refusal := stepPending s

/-- `s` with the instruction of a table word placed as the host's very next action; nothing else changes (log 1). -/
def State.withFetchWord (s : State) (nbits w : Nat) : State := placeTableWord s nbits w

end Sys2Proof.Machine
end

