-- ==== Sys2Proof/Safety.lean ====
section
/-! DEFINITION. What counts as a good state and a well-behaved host: the tags and the result registers agree
(10_state.md R12 to R19), and the host reads under the tag only (70_reset_and_hazards.md R155). -/

namespace Sys2Proof

open Machine

/-- The invariant of the register shell. -/
structure Inv (s : State) : Prop where
  /-- EF holds a value exactly under ENC_OK (R14, R15). -/
  ef_tag : s.encStatus = .ok ↔ s.ef.isSome
  /-- DF holds a value exactly under DEC_OK (R17, R18). -/
  df_tag : s.decStatus = .ok ↔ s.df.isSome
  /-- DEC_EXPECTED holds a value exactly under DEC_ERR_CHECKSUM (R19). -/
  expected_tag : s.decStatus = .errChecksum ↔ s.decExpected.isSome
  /-- DEC_ACTUAL holds a value exactly under DEC_ERR_CHECKSUM (R19). -/
  actual_tag : s.decStatus = .errChecksum ↔ s.decActual.isSome
  /-- EF is a frame that ENCODE returns for some opcode and payload (R14). -/
  ef_encoded : ∀ F, s.ef = some F → ∃ op payload, encodeFrame op payload = .ok F
  /-- DF is a valid frame: an invalid one is never delivered (R61, R90). -/
  df_valid : ∀ F, s.df = some F → valid F = true
  /-- DEC_EXPECTED and DEC_ACTUAL always differ when they hold a value (R19). -/
  diagnostics_differ : ∀ e x, s.decExpected = some e → s.decActual = some x → e ≠ x

/-- The unit an instruction belongs to (R10, R55). -/
inductive BlockUnit where
  | enc
  | dec
  /-- the shared function, which belongs to no unit -/
  | function
deriving DecidableEq, Repr

/-- ENC's ten opcodes, DEC's three rows, and the function CHECKSUM. -/
def unitOf : Instr → BlockUnit
  | .moveTo _ => .enc
  | .calibrateTo _ => .enc
  | .stop _ => .enc
  | .readPosition _ => .enc
  | .isMoving _ => .enc
  | .readTemperature _ => .enc
  | .isCalibrated _ => .enc
  | .moveWithSpeed _ => .enc
  | .park _ => .enc
  | .readVersion _ => .enc
  | .unrecognizedCommand _ _ _ _ _ => .dec
  | .badChecksum _ _ _ _ _ => .dec
  | .decode _ => .dec
  | .checksum _ => .function

/-- The host's next action, if it is a read, reads under the tag (R155). -/
def nextReadAllowed (s : State) : Bool :=
  match s.pending with
  | .read what :: _ => readAllowed what s
  | _ => true

/-- The host reads the two status registers at most: they always hold a value (R25, R155). -/
def readsStatusOnly (as : List HostAction) : Bool :=
  as.all fun
    | .read .encStatus => true
    | .read .decStatus => true
    | .read _ => false
    | .reset => true
    | .drive _ => true
    | .evalChecksum _ => true

end Sys2Proof
end

