-- ==== Sys2Proof/Certificates/Slice0/Obligations.lean ====
section
/-! DEFINITION. The statements for the provers. Each docstring names the rule of spec/ it formalises. A frame written
out byte by byte is in index order (00_scope.md R6). `pending` and `hostSeen` are the model's own fields (log 1, log 3);
a statement that rests on one of them has basis derived and says so. -/

open Sys2Proof Sys2Proof.Machine

/-! ### ENC: results, completion and frame of the ten opcodes

Each conclusion is an equality with an updated state, so it says the result, that the instruction completes, and that
every other register and field is unchanged. -/

/-- R72: `M`, move-to, for every payload; no fault, no flag; the response with this opcode delivers the echoed
target. -/
def Obligations.MoveToBuildsItsPosFrame : Prop :=
  (∀ (p : Payload) (s : State), exec (.moveTo p) s = .next { s with
      ef := some ⟨0x4D, 0x4D, p.extractLsb' 24 8, p.extractLsb' 16 8, p.extractLsb' 8 8, p.extractLsb' 0 8, 0,
        0x9A + p.extractLsb' 24 8 + p.extractLsb' 16 8 + p.extractLsb' 8 8 + p.extractLsb' 0 8⟩,
      encStatus := .ok }) ∧
  (∀ F : Frame, F.opcode = 0x4D → delivered F = .echoedTarget (F.a ++ F.b ++ F.c ++ F.d).toInt)

/-- R73: `Z`, calibrate-to, for every payload. -/
def Obligations.CalibrateToBuildsItsPosFrame : Prop :=
  (∀ (p : Payload) (s : State), exec (.calibrateTo p) s = .next { s with
      ef := some ⟨0x4D, 0x5A, p.extractLsb' 24 8, p.extractLsb' 16 8, p.extractLsb' 8 8, p.extractLsb' 0 8, 0,
        0xA7 + p.extractLsb' 24 8 + p.extractLsb' 16 8 + p.extractLsb' 8 8 + p.extractLsb' 0 8⟩,
      encStatus := .ok }) ∧
  (∀ F : Frame, F.opcode = 0x5A → delivered F = .echoedTarget (F.a ++ F.b ++ F.c ++ F.d).toInt)

/-- R74 to R78, R80, R81: each of the seven zero-payload opcodes has exactly one request frame, whatever the payload;
and what a response with its opcode delivers. -/
def Obligations.ZeroPayloadOpcodesBuildTheirOneFrame : Prop :=
  (∀ (p : Payload) (s : State),
    exec (.stop p) s = .next { s with ef := some ⟨0x4D, 0x48, 0, 0, 0, 0, 0, 0x95⟩, encStatus := .ok } ∧
    exec (.readPosition p) s = .next { s with ef := some ⟨0x4D, 0x50, 0, 0, 0, 0, 0, 0x9D⟩, encStatus := .ok } ∧
    exec (.isMoving p) s = .next { s with ef := some ⟨0x4D, 0x49, 0, 0, 0, 0, 0, 0x96⟩, encStatus := .ok } ∧
    exec (.readTemperature p) s = .next { s with ef := some ⟨0x4D, 0x54, 0, 0, 0, 0, 0, 0xA1⟩, encStatus := .ok } ∧
    exec (.isCalibrated p) s = .next { s with ef := some ⟨0x4D, 0x57, 0, 0, 0, 0, 0, 0xA4⟩, encStatus := .ok } ∧
    exec (.park p) s = .next { s with ef := some ⟨0x4D, 0x47, 0, 0, 0, 0, 0, 0x94⟩, encStatus := .ok } ∧
    exec (.readVersion p) s = .next { s with ef := some ⟨0x4D, 0x56, 0, 0, 0, 0, 0, 0xA3⟩, encStatus := .ok }) ∧
  (∀ F : Frame,
    (F.opcode = 0x48 → delivered F = .opcodeOnly) ∧
    (F.opcode = 0x50 → delivered F = .position (F.a ++ F.b ++ F.c ++ F.d).toInt) ∧
    (F.opcode = 0x49 → delivered F = .moving (F.d.extractLsb' 0 1)) ∧
    (F.opcode = 0x54 → delivered F = .environment (F.a ++ F.b).toInt (F.c ++ F.d).toInt) ∧
    (F.opcode = 0x57 → delivered F = .absolute (F.d.extractLsb' 0 1)) ∧
    (F.opcode = 0x47 → delivered F = .opcodeOnly) ∧
    (F.opcode = 0x56 → delivered F = .version F.c F.d))

/-- R79: `R`, move-with-speed: only the low byte of the payload is carried. -/
def Obligations.MoveWithSpeedBuildsItsSpeedFrame : Prop :=
  (∀ (p : Payload) (s : State), exec (.moveWithSpeed p) s = .next { s with
      ef := some ⟨0x4D, 0x52, 0, 0, 0, p.extractLsb' 0 8, 0, 0x9F + p.extractLsb' 0 8⟩, encStatus := .ok }) ∧
  (∀ F : Frame, F.opcode = 0x52 →
    delivered F = .echoedSpeed F.d (F.d.extractLsb' 7 1) (F.d.extractLsb' 0 7))

/-- R82, R50: an opcode byte is legal on the ENC side exactly if it is one of the ten; with any other, for every
payload, ENCODE fails and the ENC step writes ENC_ERR_UNSUPPORTED and leaves EF without a value. -/
def Obligations.UnsupportedOpcodesFailAndTheTenDoNot : Prop :=
  ∀ (op : Byte) (p : Payload) (s : State),
    ((op ∈ ([0x47, 0x48, 0x49, 0x4D, 0x50, 0x52, 0x54, 0x56, 0x57, 0x5A] : List Byte)) ↔
      ∃ F, encodeFrame op p = .ok F) ∧
    (op ∉ ([0x47, 0x48, 0x49, 0x4D, 0x50, 0x52, 0x54, 0x56, 0x57, 0x5A] : List Byte) →
      encodeFrame op p = .error (.unsupportedOpcode op) ∧
      encUnit op p s = .next { s with ef := none, encStatus := .errUnsupported })

/-- R71: the ENC step at the ports. With enc_start asserted, ENC writes what ENCODE of the two port values returns and
nothing else, whatever dec_bytes holds; without it, ENC state does not change. -/
def Obligations.EncStepWritesWhatEncodeReturns : Prop :=
  (∀ (op : Byte) (p : Payload) (B : Frame) (s : State),
    (∃ F, encodeFrame op p = .ok F ∧
      runAction (.drive ⟨true, op, p, false, B⟩) s = .next { s with ef := some F, encStatus := .ok }) ∨
    (encodeFrame op p = .error (.unsupportedOpcode op) ∧
      runAction (.drive ⟨true, op, p, false, B⟩) s = .next { s with ef := none, encStatus := .errUnsupported })) ∧
  (∀ (pins : Pins) (s : State), pins.encStart = false →
    ∃ t, runAction (.drive pins) s = .next t ∧ t.encStatus = s.encStatus ∧ t.ef = s.ef)

/-- R84 (its last sentence is the spec's own inference): every frame ENCODE returns has marker 'M', the opcode,
reserved 0, is valid, decodes to the same 8 bytes, and its opcode is no sentinel. -/
def Obligations.EncodeRoundTripsThroughDecode : Prop :=
  ∀ (op : Byte) (p : Payload) (F : Frame), encodeFrame op p = .ok F →
    byteAt F 0 = 0x4D ∧ byteAt F 1 = op ∧ byteAt F 6 = 0 ∧ valid F = true ∧ decodeFrame F = .ok F ∧
    op ≠ 0x21 ∧ op ≠ 0x3F

/-- R83 (derived there): ENCODE is injective on the payload for M and Z, on the low byte for R, and constant for the
seven others; there is no failure beside UnsupportedOpcode. -/
def Obligations.EncodeDropsExactlyTheUncarriedBits : Prop :=
  ∀ x y : Payload,
    (encodeFrame 0x4D x = encodeFrame 0x4D y ↔ x = y) ∧
    (encodeFrame 0x5A x = encodeFrame 0x5A y ↔ x = y) ∧
    (encodeFrame 0x52 x = encodeFrame 0x52 y ↔ x.extractLsb' 0 8 = y.extractLsb' 0 8) ∧
    (∀ op ∈ ([0x48, 0x50, 0x49, 0x54, 0x57, 0x47, 0x56] : List Byte), encodeFrame op x = encodeFrame op y) ∧
    (∀ (op : Byte) (f : BlockFault), encodeFrame op x = .error f → f = .unsupportedOpcode op)

/-! ### CHECKSUM and VALID -/

/-- R60: the low 8 bits of the integer sum of bytes 0..6, at most 1785; byte 7 is ignored. -/
def Obligations.ChecksumIsTheSumModulo256 : Prop :=
  ∀ F : Frame,
    (checksum F).toNat = (F.marker.toNat + F.opcode.toNat + F.a.toNat + F.b.toNat + F.c.toNat + F.d.toNat
      + F.reserved.toNat) % 256 ∧
    F.marker.toNat + F.opcode.toNat + F.a.toNat + F.b.toNat + F.c.toNat + F.d.toNat + F.reserved.toNat ≤ 1785 ∧
    ∀ k : Byte, checksum { F with checksum := k } = checksum F

/-- R61: valid exactly if byte 7 is the checksum, and nothing else; an invalid frame is never delivered and a valid one
is delivered unrepaired. -/
def Obligations.ValidityIsTheChecksumEquationAlone : Prop :=
  ∀ (F : Frame) (s : State),
    (valid F = true ↔ F.checksum.toNat = (F.marker.toNat + F.opcode.toNat + F.a.toNat + F.b.toNat + F.c.toNat
      + F.d.toNat + F.reserved.toNat) % 256) ∧
    ∃ t, exec (.decode F) s = .next t ∧ t.df = if valid F then some F else none

/-- R62 (derived there): the byte-serial adder gives the same checksum, in whatever order the seven bytes come. -/
def Obligations.SerialAdditionGivesTheChecksum : Prop :=
  ∀ (F : Frame) (bytes : List Byte), bytes.Perm (coveredBytes F) → bytes.foldl (· + ·) 0 = checksum F

/-- R64 (its eighth position is derived there): a frame that differs from a valid one in exactly one byte, any of the
eight, is a ChecksumError with the diagnostic bytes of R91. -/
def Obligations.OneAlteredByteIsAlwaysDetected : Prop :=
  ∀ (F : Frame) (i : Fin 8) (v : Byte) (s : State), valid F = true → v ≠ byteAt F i →
    exec (.decode (setByte F i v)) s = .next { s with
      df := none, decExpected := some (checksum (setByte F i v)), decActual := some (byteAt (setByte F i v) 7),
      decStatus := .errChecksum }

/-- R113 (e) (derived there): when exactly one of bytes 0..6 was altered, expected minus actual is the alteration. -/
def Obligations.DiagnosticsDifferByTheAlteration : Prop :=
  ∀ (F : Frame) (i : Fin 8) (v : Byte) (s : State), valid F = true → i ≠ 7 → v ≠ byteAt F i →
    ∃ t e x, exec (.decode (setByte F i v)) s = .next t ∧ t.decExpected = some e ∧ t.decActual = some x ∧
      e - x = v - byteAt F i ∧ e ≠ x

/-- R65 (derived there): what the checksum does not detect: (a) any permutation of bytes 0..6; (b) any change of bytes
0..6 after which they have the same sum modulo 256, the pairs R65 names among them; (c) a change of any one of bytes 0..6
together with the matching change of byte 7; (d) the all-zero array. -/
def Obligations.ChecksumMissesPermutationsAndCompensatedChanges : Prop :=
  (∀ F G : Frame, valid F = true → (coveredBytes G).Perm (coveredBytes F) → G.checksum = F.checksum →
    valid G = true) ∧
  (∀ F G : Frame, valid F = true → G.checksum = F.checksum →
    ((coveredBytes G).map BitVec.toNat).sum % 256 = ((coveredBytes F).map BitVec.toNat).sum % 256 →
    valid G = true) ∧
  (∀ (F : Frame) (δ : Byte), valid F = true →
    valid { F with c := F.c + δ, d := F.d - δ } = true ∧
    valid { F with marker := F.marker - δ, reserved := F.reserved + δ } = true) ∧
  (∀ (F : Frame) (i : Fin 8) (δ : Byte), valid F = true → i ≠ 7 →
    valid (setByte (setByte F i (byteAt F i + δ)) 7 (byteAt F 7 + δ)) = true) ∧
  valid ⟨0, 0, 0, 0, 0, 0, 0, 0⟩ = true

/-- R66 (derived there): exactly one value of byte 7 makes a frame valid. -/
def Obligations.ExactlyOneByte7MakesAFrameValid : Prop :=
  ∀ F : Frame, ∃! k : Byte, valid { F with checksum := k } = true

/-- R60, the row CHECKSUM as an operation: it completes and hands the byte to the host; no register, no flag, no fault.
That the byte stands in `hostSeen` is the model's choice (log 3). -/
def Obligations.ChecksumRowHandsTheSumToTheHost : Prop :=
  ∀ (F : Frame) (s : State), exec (.checksum F) s = .next { s with
    hostSeen := some (((F.marker.toNat + F.opcode.toNat + F.a.toNat + F.b.toNat + F.c.toNat + F.d.toNat
      + F.reserved.toNat) % 256 : Nat) : Int) }

/-! ### DEC -/

/-- R90: DECODE is total, succeeds exactly on valid bytes with the same 8 bytes, and otherwise fails with the computed
and the received byte, which differ. -/
def Obligations.DecodeSucceedsExactlyOnValidBytes : Prop :=
  ∀ B : Frame,
    (decodeFrame B = .ok B ↔ valid B = true) ∧
    (valid B = false → decodeFrame B = .error (.checksumError (checksum B) (byteAt B 7)) ∧
      checksum B ≠ byteAt B 7)

/-- R91: the DEC step at the ports, for every 8 bytes; and without dec_start DEC state does not change. -/
def Obligations.DecStepDeliversOrRaises : Prop :=
  (∀ (op : Byte) (p : Payload) (B : Frame) (s : State),
    runAction (.drive ⟨false, op, p, true, B⟩) s =
      if B.checksum.toNat = (B.marker.toNat + B.opcode.toNat + B.a.toNat + B.b.toNat + B.c.toNat + B.d.toNat
          + B.reserved.toNat) % 256 then
        .next { s with df := some B, decExpected := none, decActual := none, decStatus := .ok }
      else
        .next { s with df := none, decExpected := some (checksum B), decActual := some B.checksum,
                       decStatus := .errChecksum }) ∧
  (∀ (pins : Pins) (s : State), pins.decStart = false →
    ∃ t, runAction (.drive pins) s = .next t ∧ t.decStatus = s.decStatus ∧ t.df = s.df ∧
      t.decExpected = s.decExpected ∧ t.decActual = s.decActual)

/-- R90, R91: DECODE completes with its own effect, the delivery of the bytes, for every valid 8 bytes. -/
def Obligations.DecodeOfValidBytesCompletes : Prop :=
  ∀ (B : Frame) (s : State), B.checksum = B.marker + B.opcode + B.a + B.b + B.c + B.d + B.reserved →
    exec (.decode B) s = .next { s with df := some B, decExpected := none, decActual := none, decStatus := .ok }

/-- R90, R91, R130: where DECODE raises ChecksumError. -/
def Obligations.DecodeOfInvalidBytesRaisesChecksumError : Prop :=
  ∀ (B : Frame) (s : State), B.checksum ≠ B.marker + B.opcode + B.a + B.b + B.c + B.d + B.reserved →
    exec (.decode B) s = .next { s with
      df := none, decExpected := some (B.marker + B.opcode + B.a + B.b + B.c + B.d + B.reserved),
      decActual := some B.checksum, decStatus := .errChecksum }

/-- R110: the response `!`, with any payload bytes, is delivered as DEC_OK like any valid frame. That the consumer is
told the device error and none of the payload is the model's reading of "undefined" (log 12); that the row is an
operation of DEC is log 8. -/
def Obligations.UnrecognizedCommandResponseIsDelivered : Prop :=
  ∀ (a b c d : Byte) (s : State),
    exec (.unrecognizedCommand a b c d (0x6E + a + b + c + d)) s = .next { s with
      df := some ⟨0x4D, 0x21, a, b, c, d, 0, 0x6E + a + b + c + d⟩, decExpected := none, decActual := none,
      decStatus := .ok } ∧
    delivered ⟨0x4D, 0x21, a, b, c, d, 0, 0x6E + a + b + c + d⟩ = .deviceUnrecognizedCommand

/-- R111: the response `?`, likewise; that the consumer is told none of the payload is the model's reading of
"undefined" (log 12), and that the row is an operation of DEC is log 8. -/
def Obligations.BadChecksumResponseIsDelivered : Prop :=
  ∀ (a b c d : Byte) (s : State),
    exec (.badChecksum a b c d (0x8C + a + b + c + d)) s = .next { s with
      df := some ⟨0x4D, 0x3F, a, b, c, d, 0, 0x8C + a + b + c + d⟩, decExpected := none, decActual := none,
      decStatus := .ok } ∧
    delivered ⟨0x4D, 0x3F, a, b, c, d, 0, 0x8C + a + b + c + d⟩ = .deviceBadChecksum

/-- R90, R136: a sentinel response whose byte 7 is not its checksum is a ChecksumError and nothing else. That the
two rows are operations of DEC is the model's reading (log 8). -/
def Obligations.SentinelResponsesWithABadChecksumRaise : Prop :=
  ∀ (a b c d k : Byte) (s : State),
    (k ≠ 0x6E + a + b + c + d → exec (.unrecognizedCommand a b c d k) s = .next { s with
      df := none, decExpected := some (0x6E + a + b + c + d), decActual := some k, decStatus := .errChecksum }) ∧
    (k ≠ 0x8C + a + b + c + d → exec (.badChecksum a b c d k) s = .next { s with
      df := none, decExpected := some (0x8C + a + b + c + d), decActual := some k, decStatus := .errChecksum })

/-- R92, R51: DEC checks neither opcode, marker, reserved byte nor payload: any seven bytes with their checksum are
delivered raw, through the ports as well, and a sentinel is not treated specially. -/
def Obligations.DecChecksNothingButTheChecksum : Prop :=
  (∀ (m o a b c d r : Byte) (s : State),
    decUnit ⟨m, o, a, b, c, d, r, m + o + a + b + c + d + r⟩ s = .next { s with
      df := some ⟨m, o, a, b, c, d, r, m + o + a + b + c + d + r⟩, decExpected := none, decActual := none,
      decStatus := .ok }) ∧
  (∀ (B : Frame) (s : State), decUnit B s = exec (.decode B) s)

/-! ### The views of DF -/

/-- R93: the eight named fields are the bytes of DF (and so are the two version bytes); without a decoded frame
none of them has a value. -/
def Obligations.NamedFieldsAreTheBytesOfDf : Prop :=
  ∀ s : State,
    readOutput .decMarker s = readOutput (.df 0) s ∧ readOutput .decOpcode s = readOutput (.df 1) s ∧
    readOutput .decA s = readOutput (.df 2) s ∧ readOutput .decB s = readOutput (.df 3) s ∧
    readOutput .decC s = readOutput (.df 4) s ∧ readOutput .decD s = readOutput (.df 5) s ∧
    readOutput .decReserved s = readOutput (.df 6) s ∧ readOutput .decChecksum s = readOutput (.df 7) s ∧
    readOutput .verMajor s = readOutput (.df 4) s ∧ readOutput .verMinor s = readOutput (.df 5) s ∧
    (∀ i, readOutput (.df i) s = s.df.map fun F => ((byteAt F i).toNat : Int))

/-- R94 (its inverse clause is derived there): PAYLOAD32 as a number, and it gives back the payload of M and Z. -/
def Obligations.Payload32IsBigEndianAndInvertsPos : Prop :=
  (∀ (F : Frame) (s : State), s.df = some F → readOutput .payload32 s =
    some ((F.a.toNat * 2 ^ 24 + F.b.toNat * 2 ^ 16 + F.c.toNat * 2 ^ 8 + F.d.toNat : Nat) : Int)) ∧
  (∀ (op : Byte) (p : Payload) (F : Frame), op = 0x4D ∨ op = 0x5A → encodeFrame op p = .ok F → payload32 F = p)

/-- R95, R96, R97: the three signed views are the two's-complement readings of the big-endian bytes. -/
def Obligations.SignedViewsAreTwosComplement : Prop :=
  ∀ (F : Frame) (s : State), s.df = some F →
    (∃ v : Int, readOutput .payloadI32 s = some v ∧ -2147483648 ≤ v ∧ v ≤ 2147483647 ∧
      v = F.a.toNat * 2 ^ 24 + F.b.toNat * 2 ^ 16 + F.c.toNat * 2 ^ 8 + F.d.toNat
        - (if 128 ≤ F.a.toNat then 2 ^ 32 else 0)) ∧
    readOutput .hi16 s = some ((F.a.toNat * 2 ^ 8 + F.b.toNat : Nat) : Int) ∧
    (∃ v : Int, readOutput .hi16S s = some v ∧ -32768 ≤ v ∧ v ≤ 32767 ∧
      v = F.a.toNat * 2 ^ 8 + F.b.toNat - (if 128 ≤ F.a.toNat then 2 ^ 16 else 0)) ∧
    readOutput .lo16 s = some ((F.c.toNat * 2 ^ 8 + F.d.toNat : Nat) : Int) ∧
    (∃ v : Int, readOutput .lo16S s = some v ∧ -32768 ≤ v ∧ v ≤ 32767 ∧
      v = F.c.toNat * 2 ^ 8 + F.d.toNat - (if 128 ≤ F.c.toNat then 2 ^ 16 else 0))

/-- R98, R99: bit 0 of `d`, and `d` as a direction bit over a 7-bit speed. -/
def Obligations.BitViewsSplitTheByteD : Prop :=
  ∀ (F : Frame) (s : State), s.df = some F →
    readOutput .dBit0 s = some ((F.d.toNat % 2 : Nat) : Int) ∧
    readOutput .dDir s = some ((F.d.toNat / 128 : Nat) : Int) ∧
    readOutput .dSpeed s = some ((F.d.toNat % 128 : Nat) : Int) ∧
    readOutput .verMajor s = some (F.c.toNat : Int) ∧ readOutput .verMinor s = some (F.d.toNat : Int)

/-- R34 (derived there): the views at three widths are consistent. -/
def Obligations.ViewsAtThreeWidthsAgree : Prop :=
  ∀ F : Frame, (payload32 F).extractLsb' 16 16 = hi16 F ∧ (payload32 F).extractLsb' 0 16 = lo16 F ∧
    (payload32 F).extractLsb' 0 8 = byteAt F 5

/-- R103, R104, R106 to R109: a valid response with the opcode is delivered as DEC_OK and its consumer reads these views. -/
def Obligations.ResponsesDeliverTheViewsOfTheirOpcode : Prop :=
  ∀ (B : Frame) (s : State), valid B = true →
    ∃ t, exec (.decode B) s = .next t ∧ t.decStatus = .ok ∧ t.df = some B ∧
      (B.opcode = 0x50 → delivered B = .position (B.a ++ B.b ++ B.c ++ B.d).toInt) ∧
      (B.opcode = 0x49 → delivered B = .moving (B.d.extractLsb' 0 1)) ∧
      (B.opcode = 0x57 → delivered B = .absolute (B.d.extractLsb' 0 1)) ∧
      (B.opcode = 0x52 → delivered B = .echoedSpeed B.d (B.d.extractLsb' 7 1) (B.d.extractLsb' 0 7)) ∧
      (B.opcode = 0x47 → delivered B = .opcodeOnly) ∧
      (B.opcode = 0x56 → delivered B = .version B.c B.d)

/-- R100, R101, R102, R105, R112 (each holds an inference the spec marks as its own, or a duty of the host): the other
responses, and any other opcode byte, which is no opcode ENC can produce. -/
def Obligations.EchoesAndUnknownOpcodesAreDelivered : Prop :=
  ∀ (B : Frame) (s : State), valid B = true →
    ∃ t, exec (.decode B) s = .next t ∧ t.decStatus = .ok ∧ t.df = some B ∧
      (B.opcode = 0x4D → delivered B = .echoedTarget (B.a ++ B.b ++ B.c ++ B.d).toInt) ∧
      (B.opcode = 0x5A → delivered B = .echoedTarget (B.a ++ B.b ++ B.c ++ B.d).toInt) ∧
      (B.opcode = 0x48 → delivered B = .opcodeOnly) ∧
      (B.opcode = 0x54 → delivered B = .environment (B.a ++ B.b).toInt (B.c ++ B.d).toInt) ∧
      (B.opcode ∉ ([0x47, 0x48, 0x49, 0x4D, 0x50, 0x52, 0x54, 0x56, 0x57, 0x5A, 0x21, 0x3F] : List Byte) →
        delivered B = .otherOpcode B.opcode ∧ ∀ p F, encodeFrame B.opcode p ≠ .ok F)

/-- R72, R73, R95, R100, R101: a target of the callers' signed range, passed as t mod 2^32, echoed and decoded, is
delivered as t. -/
def Obligations.EchoedTargetIsTheSignedTarget : Prop :=
  ∀ (t : Int) (s : State), -2147483648 ≤ t → t ≤ 2147483647 →
    (∃ u F v, exec (.moveTo (BitVec.ofInt 32 t)) s = .next u ∧ u.ef = some F ∧ exec (.decode F) u = .next v ∧
      v.df.map delivered = some (.echoedTarget t)) ∧
    (∃ u F v, exec (.calibrateTo (BitVec.ofInt 32 t)) s = .next u ∧ u.ef = some F ∧ exec (.decode F) u = .next v ∧
      v.df.map delivered = some (.echoedTarget t))

/-- R79, R107: a caller's payload (dir << 7) | speed, echoed and decoded, is delivered as that direction and speed. -/
def Obligations.EchoedSpeedIsTheRequestedSpeed : Prop :=
  ∀ (dir : BitVec 1) (speed : BitVec 7) (high : BitVec 24) (s : State),
    ∃ u F v, exec (.moveWithSpeed (high ++ dir ++ speed)) s = .next u ∧ u.ef = some F ∧
      exec (.decode F) u = .next v ∧ v.df.map delivered = some (.echoedSpeed (dir ++ speed) dir speed)

/-! ### Faults, reset, results -/

/-- R134: raising a fault is exactly these register writes; the other unit is untouched. -/
def Obligations.RaisingAFaultWritesOnlyItsUnit : Prop :=
  ∀ (op e x : Byte) (s : State),
    s.raise (.unsupportedOpcode op) = { s with ef := none, encStatus := .errUnsupported } ∧
    s.raise (.checksumError e x) = { s with
      df := none, decExpected := some e, decActual := some x, decStatus := .errChecksum } ∧
    encCode (s.raise (.unsupportedOpcode op)).encStatus = 2 ∧ decCode (s.raise (.checksumError e x)).decStatus = 2

/-- R135: a fault code stays until the same unit's next operation or reset, and it is not sticky: the unit's next
operation ends as if the fault had not been, and reset clears it. -/
def Obligations.FaultsStayUntilOverwrittenAndAreNotSticky : Prop :=
  ∀ (op op' e x : Byte) (p : Payload) (B : Frame) (s : State),
    encUnit op p (s.raise (.unsupportedOpcode op')) = encUnit op p s ∧
    decUnit B (s.raise (.checksumError e x)) = decUnit B s ∧
    runAction .reset (s.raise (.unsupportedOpcode op')) = runAction .reset s ∧
    runAction .reset (s.raise (.checksumError e x)) = runAction .reset s ∧
    (∀ (act : HostAction) (t : State), runAction act (s.raise (.unsupportedOpcode op')) = .next t → act ≠ .reset →
      (∀ pins, act = .drive pins → pins.encStart = false) → t.encStatus = .errUnsupported ∧ t.ef = none) ∧
    (∀ (act : HostAction) (t : State), runAction act (s.raise (.checksumError e x)) = .next t → act ≠ .reset →
      (∀ pins, act = .drive pins → pins.decStart = false) →
      t.decStatus = .errChecksum ∧ t.df = none ∧ t.decExpected = some e ∧ t.decActual = some x)

/-- R136 (derived there): both units started together and both failing: both codes, no priority. -/
def Obligations.TwoFaultsInOneStepAreBothRecorded : Prop :=
  ∀ (op : Byte) (p : Payload) (B : Frame) (s : State),
    op ∉ ([0x47, 0x48, 0x49, 0x4D, 0x50, 0x52, 0x54, 0x56, 0x57, 0x5A] : List Byte) → valid B = false →
    runAction (.drive ⟨true, op, p, true, B⟩) s = .next { s with
      ef := none, encStatus := .errUnsupported, df := none, decExpected := some (checksum B),
      decActual := some (byteAt B 7), decStatus := .errChecksum }

/-- R150, R24: RESET, from every state, and the state at power-up. That it leaves everything else unchanged is, beyond
the registers R150 lists, about the model's own fields pending and hostSeen, and is the model's choice (log 11). -/
def Obligations.ResetLeavesIdleStatusAndNoValues : Prop :=
  (∀ s : State, runAction .reset s = .next { s with
    encStatus := .idle, decStatus := .idle, ef := none, df := none, decExpected := none, decActual := none }) ∧
  encCode State.reset.encStatus = 0 ∧ decCode State.reset.decStatus = 0 ∧ State.reset.ef = none ∧
  State.reset.df = none ∧ State.reset.decExpected = none ∧ State.reset.decActual = none

/-- R13, R16: the codes of the two status registers; 3 is never shown. -/
def Obligations.StatusCodesAreZeroOneTwo : Prop :=
  encCode .idle = 0 ∧ encCode .ok = 1 ∧ encCode .errUnsupported = 2 ∧
  decCode .idle = 0 ∧ decCode .ok = 1 ∧ decCode .errChecksum = 2 ∧
  ∀ s : State, encCode s.encStatus ≠ 3 ∧ decCode s.decStatus ≠ 3

/-- R156: a result stays until the same unit's next operation or reset, whatever else the host does; and starting
operations over unread results is never a fault. -/
def Obligations.ResultsLastUntilTheirUnitsNextOperation : Prop :=
  (∀ (act : HostAction) (s t : State), runAction act s = .next t → act ≠ .reset →
    ((∀ pins, act = .drive pins → pins.encStart = false) → t.encStatus = s.encStatus ∧ t.ef = s.ef) ∧
    ((∀ pins, act = .drive pins → pins.decStart = false) → t.decStatus = s.decStatus ∧ t.df = s.df ∧
      t.decExpected = s.decExpected ∧ t.decActual = s.decActual)) ∧
  (∀ (pins : Pins) (s : State), ∃ t, runAction (.drive pins) s = .next t)

/-! ### Independence and determinism -/

/-- R10, R23: for every instruction: an ENC operation writes ENC state only and what it leaves there depends on the
instruction alone; likewise DEC; the function CHECKSUM writes no register; and none takes a pending action. The clauses
about `pending` (log 1) and `hostSeen` (log 3) are about the model's own fields, and that the sentinel rows are DEC's is
the model's reading of the table (log 8). -/
def Obligations.UnitsShareNoStateAndKeepNoHistory : Prop :=
  ∀ (i : Instr) (s s' t t' : State), exec i s = .next t → exec i s' = .next t' →
    t.pending = s.pending ∧
    (unitOf i ≠ .enc → t.encStatus = s.encStatus ∧ t.ef = s.ef) ∧
    (unitOf i ≠ .dec → t.decStatus = s.decStatus ∧ t.df = s.df ∧ t.decExpected = s.decExpected ∧
      t.decActual = s.decActual) ∧
    (unitOf i ≠ .function → t.hostSeen = s.hostSeen) ∧
    (unitOf i = .enc → t.encStatus = t'.encStatus ∧ t.ef = t'.ef) ∧
    (unitOf i = .dec → t.decStatus = t'.decStatus ∧ t.df = t'.df ∧ t.decExpected = t'.decExpected ∧
      t.decActual = t'.decActual)

/-- R37 (derived there): a simultaneous start of ENC and DEC gives the same state as either order. -/
def Obligations.SimultaneousStartEqualsEitherOrder : Prop :=
  ∀ (op : Byte) (p : Payload) (B : Frame) (s : State),
    ∃ t u v, runAction (.drive ⟨true, op, p, true, B⟩) s = .next t ∧
      encUnit op p s = .next u ∧ decUnit B u = .next t ∧
      decUnit B s = .next v ∧ encUnit op p v = .next t

/-! ### Host reads -/

/-- R13, R14, R16, R19, R32, R17: the number a read of each register shows: the status codes, each byte of EF and DF
under its index (0 the marker, 7 the checksum), the computed checksum under DEC_EXPECTED and the received byte under
DEC_ACTUAL, and no value where the register holds none. That a read shows a register as an unsigned number is the
model's packaging (log 3). -/
def Obligations.RegisterOutputsShowTheirRegisters : Prop :=
  (∀ s : State,
    (s.encStatus = .idle → readOutput .encStatus s = some 0) ∧
    (s.encStatus = .ok → readOutput .encStatus s = some 1) ∧
    (s.encStatus = .errUnsupported → readOutput .encStatus s = some 2) ∧
    (s.decStatus = .idle → readOutput .decStatus s = some 0) ∧
    (s.decStatus = .ok → readOutput .decStatus s = some 1) ∧
    (s.decStatus = .errChecksum → readOutput .decStatus s = some 2)) ∧
  (∀ (F : Frame) (s : State), s.ef = some F →
    readOutput (.ef 0) s = some (F.marker.toNat : Int) ∧ readOutput (.ef 1) s = some (F.opcode.toNat : Int) ∧
    readOutput (.ef 2) s = some (F.a.toNat : Int) ∧ readOutput (.ef 3) s = some (F.b.toNat : Int) ∧
    readOutput (.ef 4) s = some (F.c.toNat : Int) ∧ readOutput (.ef 5) s = some (F.d.toNat : Int) ∧
    readOutput (.ef 6) s = some (F.reserved.toNat : Int) ∧ readOutput (.ef 7) s = some (F.checksum.toNat : Int)) ∧
  (∀ (F : Frame) (s : State), s.df = some F →
    readOutput (.df 0) s = some (F.marker.toNat : Int) ∧ readOutput (.df 1) s = some (F.opcode.toNat : Int) ∧
    readOutput (.df 2) s = some (F.a.toNat : Int) ∧ readOutput (.df 3) s = some (F.b.toNat : Int) ∧
    readOutput (.df 4) s = some (F.c.toNat : Int) ∧ readOutput (.df 5) s = some (F.d.toNat : Int) ∧
    readOutput (.df 6) s = some (F.reserved.toNat : Int) ∧ readOutput (.df 7) s = some (F.checksum.toNat : Int)) ∧
  (∀ s : State,
    readOutput .decExpected s = s.decExpected.map (fun e => (e.toNat : Int)) ∧
    readOutput .decActual s = s.decActual.map (fun x => (x.toNat : Int)) ∧
    (s.ef = none → ∀ i, readOutput (.ef i) s = none) ∧ (s.df = none → ∀ i, readOutput (.df i) s = none)) ∧
  (∀ (B : Frame) (s : State), valid B = false → ∃ t, exec (.decode B) s = .next t ∧
    readOutput .decExpected t = some ((checksum B).toNat : Int) ∧
    readOutput .decActual t = some (B.checksum.toNat : Int))

/-- R155, R12, R36: a read is answered exactly under the tag, refused by name otherwise, and changes no register. The
named refusal (log 2), `hostSeen` (log 3) and the invariant `Inv` are the model's. -/
def Obligations.ReadsAreAnsweredExactlyUnderTheTag : Prop :=
  ∀ (what : Output) (s : State), Inv s →
    (readAllowed what s = true → ∃ v, readOutput what s = some v ∧
      runAction (.read what) s = .next { s with hostSeen := some v }) ∧
    (readAllowed what s = false → runAction (.read what) s = .refused (.readOfNoValue what))

/-! ### Decoding -/

/-- Every instruction of every operand: the host action it is encoded to starts exactly it (R11, R46, R50; the
encoding as a host action is the model's, log 1). -/
def Obligations.PortEncodingRoundTrips : Prop :=
  ∀ i : Instr, i.wellFormed = true → started (encode i) = [.instr i]

/-- Every instruction that has a table word: the word in the packing of R40, with match, mask and VALID of R55, is read
back as it. That a table word is read as an operation at all (a request word as the ENC operation, a sentinel word with any
byte 7 as the sentinel's, any other word as DECODE) is the model's choice (log 9). `hasTableWord` leaves out what a word
does not carry: payload bits outside the row's fields and CHECKSUM, both in `PortEncodingRoundTrips`. -/
def Obligations.TableWordRoundTrips : Prop :=
  ∀ i : Instr, hasTableWord i = true → decodeTableWord 64 (wordOfFrame (tableFrame i)).toNat = some i

/-- Every frame ENCODE can produce is read, by match, mask and VALID (R55, R56), as an instruction that does the very
ENC step that produced it; and a frame so read is the frame that instruction produces. That a request frame is read as the
ENC operation that produces it (`readRequestFrame`, `tableFrame`) is the model's choice (log 9). -/
def Obligations.RequestFramesReadBackAsTheirOperation : Prop :=
  (∀ (op : Byte) (p : Payload) (F : Frame), encodeFrame op p = .ok F →
    ∃ i, readRequestFrame F = some i ∧ ∀ s, exec i s = encUnit op p s) ∧
  (∀ (F : Frame) (i : Instr), readRequestFrame F = some i → tableFrame i = F)

/-- R55: a decoder written from the table: match and mask and, in addition, VALID. A valid word that agrees with a row
is read as that row's instruction; a word that agrees with none, or agrees with a request row but is not valid, is read as
DECODE of its 8 bytes; and whatever row a word that is not valid agrees with, it is a DEC operation that raises
ChecksumError, never an ENC operation. (That a request word is read as its row's ENC operation,
every other word as DECODE, and an invalid sentinel word as the sentinel's operation, is the model's choice, log 9;
that a sentinel's operation is DEC's is log 8.) -/
def Obligations.TableRowsSelectTheirInstruction : Prop :=
  ∀ w : BitVec 64,
    (∀ row ∈ opcodeRows, w &&& row.mask = row.pattern → valid (frameOfWord w) = true →
      (decodeTableWord 64 w.toNat).map mnemonicOf = some row.mnemonic) ∧
    ((∀ row ∈ opcodeRows, w &&& row.mask ≠ row.pattern) →
      decodeTableWord 64 w.toNat = some (.decode (frameOfWord w))) ∧
    (valid (frameOfWord w) = false → matchesSentinelRow (frameOfWord w) = false →
      decodeTableWord 64 w.toNat = some (.decode (frameOfWord w))) ∧
    (valid (frameOfWord w) = false → ∃ i, decodeTableWord 64 w.toNat = some i ∧ unitOf i = .dec ∧
      ∀ s : State, exec i s = .next { s with
        df := none, decExpected := some (checksum (frameOfWord w)), decActual := some (byteAt (frameOfWord w) 7),
        decStatus := .errChecksum })

/-- R56: the rows are pairwise disjoint: no word agrees with two of them. -/
def Obligations.TableRowsArePairwiseDisjoint : Prop :=
  opcodeRows.Pairwise fun r r' => ∀ w : BitVec 64, ¬ (w &&& r.mask = r.pattern ∧ w &&& r'.mask = r'.pattern)

/-- Words written out from 30_encoding.md R40, R42, R46 and the examples of R72, R73, R79, R110, and one request word
with a wrong byte 7 (R55, VD17). That a request word is read as the ENC operation, and an unmatched word as DECODE, is
the model's choice (log 9). -/
def Obligations.SampleWordsDecode : Prop :=
  decodeTableWord 64 0x4D4D000007D00071 = some (.moveTo 2000) ∧
  decodeTableWord 64 0x4D5AFFFFF83000CD = some (.calibrateTo 0xFFFFF830) ∧
  decodeTableWord 64 0x4D48000000000095 = some (.stop 0) ∧
  decodeTableWord 64 0x4D52000000850024 = some (.moveWithSpeed 0x85) ∧
  decodeTableWord 64 0x4D21AABBCCDD007C = some (.unrecognizedCommand 0xAA 0xBB 0xCC 0xDD 0x7C) ∧
  decodeTableWord 64 0x58500000000000A8 = some (.decode ⟨0x58, 0x50, 0, 0, 0, 0, 0, 0xA8⟩) ∧
  decodeTableWord 64 0x4D4D000007D00070 = some (.decode ⟨0x4D, 0x4D, 0, 0, 0x07, 0xD0, 0, 0x70⟩)

/-! ### The step, runs, the invariant -/

/-- A step with an encoded instruction first in the host's list is exec of it, with the list advanced; without an action
it changes nothing. The list `pending` and the encoding as a host action are the model's (log 1). -/
def Obligations.StepRunsTheDecodedInstruction : Prop :=
  (∀ (i : Instr) (s : State) (rest : List HostAction), i.wellFormed = true → s.pending = encode i :: rest →
    step s = exec i { s with pending := rest }) ∧
  (∀ s : State, s.pending = [] → step s = .next s)

/-- A table word placed as the next instruction is run by the very next step, on the state as it was. Placing a word
(log 1) and reading it as an instruction (log 9) are the model's choices. -/
def Obligations.StepRunsThePlacedTableWord : Prop :=
  ∀ (nbits w : Nat) (i : Instr) (s : State), decodeTableWord nbits w = some i →
    step (s.withFetchWord nbits w) = exec i s

/-- R161: no operation can hang and the block never halts: a host that reads at most the status registers gets a next
state after any number of steps, with that many of its actions done. The list `pending` that holds them is the model's
(log 1). -/
def Obligations.RunsNeverHalt : Prop :=
  ∀ (k : Nat) (s : State), readsStatusOnly s.pending = true →
    ∃ t : State, core.run k s = .next t ∧ t.pending = s.pending.drop k

/-- A step is refused exactly when the host's next action reads against R155. That the host's actions stand in the list
`pending`, whose first one the step takes (log 1), that a forbidden read ends in the refusal readOfNoValue (log 2), and
the invariant `Inv` are the model's. -/
def Obligations.OnlyAForbiddenReadIsRefused : Prop :=
  ∀ s : State, Inv s →
    (nextReadAllowed s = true ↔ ∃ t, step s = .next t) ∧
    (nextReadAllowed s = false ↔ ∃ what, step s = .refused (.readOfNoValue what))

/-- R12, R14, R15, R17, R18, R19 as one invariant that every step keeps, from every state that meets it. Putting them
together as `Inv`, "no value" as `none` (log 2), and the step over the list `pending` (log 1) are the model's. -/
def Obligations.StepKeepsTheRegisterInvariant : Prop :=
  ∀ s t : State, Inv s → step s = .next t → Inv t

/-- R24: the registers as reset leaves them meet the invariant `Inv`, which is the model's (log 2). -/
def Obligations.ResetMeetsTheRegisterInvariant : Prop := Inv State.reset
end

