-- ==== Sys2Proof/Config.lean ====
section
/-! DEFINITION. The parameters of the block that the spec leaves open (00_scope.md R5). The fixed ones are fixed in
the types (FRAME_LEN in `Frame`, the widths in `Byte` and `Payload`) and in Machine/Opcodes.lean and
Machine/Checksum.lean (MARKER, RESERVED, the opcode bytes, the modulus). -/

namespace Sys2Proof

/-- T_ENC, the time from the start of an ENCODE to its result: any value >= 0 (R5, R160). No rule depends on it and
nothing in this model reads it: an operation is one atomic step (log 6).
DESIGN CHOICE: R5 gives the time no unit and no kind of number; that it is a natural number, whole units of no stated unit,
and one value for the machine, is the model's (log 13). -/
opaque Config.tEnc : Nat

/-- T_DEC, the time from the start of a DECODE to its result: any value >= 0 (R5, R160; log 6).
DESIGN CHOICE: a natural number, whole units of no stated unit, one value for the machine (log 13). -/
opaque Config.tDec : Nat

end Sys2Proof
end

