-- ==== Sys2Proof/Laws/State.lean ====
section
/-! SUPPORT. One lemma per field per named update of State, so that no later proof unfolds a record update. -/

namespace Sys2Proof.Machine

@[simp] theorem encDeliver_encStatus (s : State) (F : Frame) : (s.encDeliver F).encStatus = .ok := rfl
@[simp] theorem encDeliver_ef (s : State) (F : Frame) : (s.encDeliver F).ef = some F := rfl
@[simp] theorem encDeliver_decStatus (s : State) (F : Frame) : (s.encDeliver F).decStatus = s.decStatus := rfl
@[simp] theorem encDeliver_df (s : State) (F : Frame) : (s.encDeliver F).df = s.df := rfl
@[simp] theorem encDeliver_decExpected (s : State) (F : Frame) : (s.encDeliver F).decExpected = s.decExpected := rfl
@[simp] theorem encDeliver_decActual (s : State) (F : Frame) : (s.encDeliver F).decActual = s.decActual := rfl
@[simp] theorem encDeliver_pending (s : State) (F : Frame) : (s.encDeliver F).pending = s.pending := rfl
@[simp] theorem encDeliver_hostSeen (s : State) (F : Frame) : (s.encDeliver F).hostSeen = s.hostSeen := rfl

@[simp] theorem decDeliver_encStatus (s : State) (F : Frame) : (s.decDeliver F).encStatus = s.encStatus := rfl
@[simp] theorem decDeliver_ef (s : State) (F : Frame) : (s.decDeliver F).ef = s.ef := rfl
@[simp] theorem decDeliver_decStatus (s : State) (F : Frame) : (s.decDeliver F).decStatus = .ok := rfl
@[simp] theorem decDeliver_df (s : State) (F : Frame) : (s.decDeliver F).df = some F := rfl
@[simp] theorem decDeliver_decExpected (s : State) (F : Frame) : (s.decDeliver F).decExpected = none := rfl
@[simp] theorem decDeliver_decActual (s : State) (F : Frame) : (s.decDeliver F).decActual = none := rfl
@[simp] theorem decDeliver_pending (s : State) (F : Frame) : (s.decDeliver F).pending = s.pending := rfl
@[simp] theorem decDeliver_hostSeen (s : State) (F : Frame) : (s.decDeliver F).hostSeen = s.hostSeen := rfl

@[simp] theorem raise_unsupported_encStatus (s : State) (op : Byte) : (s.raise (.unsupportedOpcode op)).encStatus = .errUnsupported := rfl
@[simp] theorem raise_unsupported_ef (s : State) (op : Byte) : (s.raise (.unsupportedOpcode op)).ef = none := rfl
@[simp] theorem raise_unsupported_decStatus (s : State) (op : Byte) : (s.raise (.unsupportedOpcode op)).decStatus = s.decStatus := rfl
@[simp] theorem raise_unsupported_df (s : State) (op : Byte) : (s.raise (.unsupportedOpcode op)).df = s.df := rfl
@[simp] theorem raise_unsupported_decExpected (s : State) (op : Byte) : (s.raise (.unsupportedOpcode op)).decExpected = s.decExpected := rfl
@[simp] theorem raise_unsupported_decActual (s : State) (op : Byte) : (s.raise (.unsupportedOpcode op)).decActual = s.decActual := rfl
@[simp] theorem raise_unsupported_pending (s : State) (op : Byte) : (s.raise (.unsupportedOpcode op)).pending = s.pending := rfl
@[simp] theorem raise_unsupported_hostSeen (s : State) (op : Byte) : (s.raise (.unsupportedOpcode op)).hostSeen = s.hostSeen := rfl

@[simp] theorem raise_checksumError_encStatus (s : State) (e x : Byte) : (s.raise (.checksumError e x)).encStatus = s.encStatus := rfl
@[simp] theorem raise_checksumError_ef (s : State) (e x : Byte) : (s.raise (.checksumError e x)).ef = s.ef := rfl
@[simp] theorem raise_checksumError_decStatus (s : State) (e x : Byte) : (s.raise (.checksumError e x)).decStatus = .errChecksum := rfl
@[simp] theorem raise_checksumError_df (s : State) (e x : Byte) : (s.raise (.checksumError e x)).df = none := rfl
@[simp] theorem raise_checksumError_decExpected (s : State) (e x : Byte) : (s.raise (.checksumError e x)).decExpected = some e := rfl
@[simp] theorem raise_checksumError_decActual (s : State) (e x : Byte) : (s.raise (.checksumError e x)).decActual = some x := rfl
@[simp] theorem raise_checksumError_pending (s : State) (e x : Byte) : (s.raise (.checksumError e x)).pending = s.pending := rfl
@[simp] theorem raise_checksumError_hostSeen (s : State) (e x : Byte) : (s.raise (.checksumError e x)).hostSeen = s.hostSeen := rfl

@[simp] theorem resetUnits_encStatus (s : State) : s.resetUnits.encStatus = .idle := rfl
@[simp] theorem resetUnits_ef (s : State) : s.resetUnits.ef = none := rfl
@[simp] theorem resetUnits_decStatus (s : State) : s.resetUnits.decStatus = .idle := rfl
@[simp] theorem resetUnits_df (s : State) : s.resetUnits.df = none := rfl
@[simp] theorem resetUnits_decExpected (s : State) : s.resetUnits.decExpected = none := rfl
@[simp] theorem resetUnits_decActual (s : State) : s.resetUnits.decActual = none := rfl
@[simp] theorem resetUnits_pending (s : State) : s.resetUnits.pending = s.pending := rfl
@[simp] theorem resetUnits_hostSeen (s : State) : s.resetUnits.hostSeen = s.hostSeen := rfl

@[simp] theorem handToHost_encStatus (s : State) (v : Int) : (s.handToHost v).encStatus = s.encStatus := rfl
@[simp] theorem handToHost_ef (s : State) (v : Int) : (s.handToHost v).ef = s.ef := rfl
@[simp] theorem handToHost_decStatus (s : State) (v : Int) : (s.handToHost v).decStatus = s.decStatus := rfl
@[simp] theorem handToHost_df (s : State) (v : Int) : (s.handToHost v).df = s.df := rfl
@[simp] theorem handToHost_decExpected (s : State) (v : Int) : (s.handToHost v).decExpected = s.decExpected := rfl
@[simp] theorem handToHost_decActual (s : State) (v : Int) : (s.handToHost v).decActual = s.decActual := rfl
@[simp] theorem handToHost_pending (s : State) (v : Int) : (s.handToHost v).pending = s.pending := rfl
@[simp] theorem handToHost_hostSeen (s : State) (v : Int) : (s.handToHost v).hostSeen = some v := rfl

@[simp] theorem withPending_encStatus (s : State) (as : List HostAction) : (s.withPending as).encStatus = s.encStatus := rfl
@[simp] theorem withPending_ef (s : State) (as : List HostAction) : (s.withPending as).ef = s.ef := rfl
@[simp] theorem withPending_decStatus (s : State) (as : List HostAction) : (s.withPending as).decStatus = s.decStatus := rfl
@[simp] theorem withPending_df (s : State) (as : List HostAction) : (s.withPending as).df = s.df := rfl
@[simp] theorem withPending_decExpected (s : State) (as : List HostAction) : (s.withPending as).decExpected = s.decExpected := rfl
@[simp] theorem withPending_decActual (s : State) (as : List HostAction) : (s.withPending as).decActual = s.decActual := rfl
@[simp] theorem withPending_pending (s : State) (as : List HostAction) : (s.withPending as).pending = as := rfl
@[simp] theorem withPending_hostSeen (s : State) (as : List HostAction) : (s.withPending as).hostSeen = s.hostSeen := rfl

/-- Replacing the pending list twice leaves the later one. -/
@[simp] theorem withPending_withPending (s : State) (as bs : List HostAction) :
    (s.withPending as).withPending bs = s.withPending bs := rfl

/-- Putting back the list that is there changes nothing. -/
@[simp] theorem withPending_self (s : State) : s.withPending s.pending = s := rfl

end Sys2Proof.Machine
end

