-- ==== Sys2Proof/Laws/Ops.lean ====
section
/-! SUPPORT. One lemma per shared operation that says everything it can do; later proofs cite these. -/

namespace Sys2Proof.Machine

/-! ### Frames and the checksum -/

theorem byteAt_setByte_same (F : Frame) (i : Fin 8) (v : Byte) : byteAt (setByte F i v) i = v := by
  fin_cases i <;> rfl

theorem byteAt_setByte_other (F : Frame) {i j : Fin 8} (v : Byte) (h : j ≠ i) :
    byteAt (setByte F i v) j = byteAt F j := by
  fin_cases i <;> fin_cases j <;> first | rfl | exact absurd rfl h

/-- The checksum as a sum of bytes that wraps. -/
theorem checksum_eq_sum (F : Frame) :
    checksum F = F.marker + F.opcode + F.a + F.b + F.c + F.d + F.reserved := by
  simp [checksum, BitVec.ofNat_add]

/-- Byte 7 is not read. -/
theorem checksum_ignores_byte7 (F : Frame) (k : Byte) : checksum { F with checksum := k } = checksum F := rfl

theorem valid_iff (F : Frame) : valid F = true ↔ F.checksum = checksum F := by
  simp [valid]

theorem sealFrame_valid (m o a b c d r : Byte) : valid (sealFrame m o a b c d r) = true := by
  rw [valid_iff]; rfl

theorem requestFrame_valid (op : Byte) (x : PayloadBytes) : valid (requestFrame op x) = true :=
  sealFrame_valid _ _ _ _ _ _ _

theorem requestFrame_fields (op : Byte) (x : PayloadBytes) :
    requestFrame op x = ⟨0x4D, op, x.a, x.b, x.c, x.d, 0, 0x4D + op + x.a + x.b + x.c + x.d⟩ := by
  simp [requestFrame, sealFrame, checksum_eq_sum, markerByte, reservedByte]

/-! ### The two pure functions -/

theorem decodeFrame_of_valid {B : Frame} (h : valid B = true) : decodeFrame B = .ok B := by
  simp [decodeFrame, (valid_iff B).mp h]

theorem decodeFrame_of_invalid {B : Frame} (h : valid B = false) :
    decodeFrame B = .error (.checksumError (checksum B) B.checksum) := by
  have : B.checksum ≠ checksum B := fun e => by simp [(valid_iff B).mpr e] at h
  simp [decodeFrame, this]

/-! ### The shared operations -/

theorem decStep_of_valid {B : Frame} (s : State) (h : valid B = true) :
    decStep B s = .next (s.decDeliver B) := by
  simp [decStep, decodeFrame_of_valid h]

theorem decStep_of_invalid {B : Frame} (s : State) (h : valid B = false) :
    decStep B s = .next (s.raise (.checksumError (checksum B) B.checksum)) := by
  simp [decStep, decodeFrame_of_invalid h]

/-- Everything a DEC operation can do. -/
theorem decStep_cases (B : Frame) (s : State) :
    (valid B = true ∧ decStep B s = .next (s.decDeliver B)) ∨
    (valid B = false ∧ decStep B s = .next (s.raise (.checksumError (checksum B) B.checksum))) := by
  cases h : valid B
  · exact .inr ⟨rfl, decStep_of_invalid s h⟩
  · exact .inl ⟨rfl, decStep_of_valid s h⟩

/-- Everything a host read can do. -/
theorem hostRead_cases (what : Output) (s : State) :
    (∃ v, readOutput what s = some v ∧ hostRead what s = .next (s.handToHost v)) ∨
    (readOutput what s = none ∧ hostRead what s = .refused (.readOfNoValue what)) := by
  cases h : readOutput what s with
  | none => exact .inr ⟨rfl, by simp [hostRead, h]⟩
  | some v => exact .inl ⟨v, rfl, by simp [hostRead, h]⟩

/-- Everything an instruction can do: one ENC delivery, one DEC operation, or one number handed to the host. -/
theorem exec_cases (i : Instr) (s : State) :
    (∃ op x, op ∈ encodableOpcodes ∧ exec i s = .next (s.encDeliver (requestFrame op x))) ∨
    (∃ B, exec i s = decStep B s) ∨
    (∃ B, i = .checksum B ∧ exec i s = .next (s.handToHost (checksum B).toNat)) := by
  cases i with
  | moveTo p => exact .inl ⟨opMoveTo, posLayout p, by decide, rfl⟩
  | calibrateTo p => exact .inl ⟨opCalibrateTo, posLayout p, by decide, rfl⟩
  | stop p => exact .inl ⟨opStop, zeroLayout p, by decide, rfl⟩
  | readPosition p => exact .inl ⟨opReadPosition, zeroLayout p, by decide, rfl⟩
  | isMoving p => exact .inl ⟨opIsMoving, zeroLayout p, by decide, rfl⟩
  | readTemperature p => exact .inl ⟨opReadTemperature, zeroLayout p, by decide, rfl⟩
  | isCalibrated p => exact .inl ⟨opIsCalibrated, zeroLayout p, by decide, rfl⟩
  | moveWithSpeed p => exact .inl ⟨opMoveWithSpeed, speedLayout p, by decide, rfl⟩
  | park p => exact .inl ⟨opPark, zeroLayout p, by decide, rfl⟩
  | readVersion p => exact .inl ⟨opReadVersion, zeroLayout p, by decide, rfl⟩
  | unrecognizedCommand a b c d k => exact .inr (.inl ⟨_, rfl⟩)
  | badChecksum a b c d k => exact .inr (.inl ⟨_, rfl⟩)
  | decode B => exact .inr (.inl ⟨B, rfl⟩)
  | checksum B => exact .inr (.inr ⟨B, rfl, rfl⟩)

/-! ### Units, actions, the step -/

/-- DEC's decoder only names the operation: whatever the name, it is the DEC operation on the same bytes (R92). -/
theorem exec_decodeDec (B : Frame) (s : State) : exec (decodeDec B) s = decStep B s := by
  unfold decodeDec
  split
  · rename_i h
    obtain ⟨hm, hr⟩ : B.marker = markerByte ∧ B.reserved = reservedByte := by
      simpa [hasRowConstants] using h
    split
    · rename_i ho
      have : sentinelFrame opUnrecognizedCommand B.a B.b B.c B.d B.checksum = B := by
        ext1 <;> simp [sentinelFrame, hm, hr, ho]
      simp [exec, execUnrecognizedCommand, this]
    · split
      · rename_i ho
        have : sentinelFrame opBadChecksum B.a B.b B.c B.d B.checksum = B := by
          ext1 <;> simp [sentinelFrame, hm, hr, ho]
        simp [exec, execBadChecksum, this]
      · rfl
  · rfl

theorem decUnit_eq (B : Frame) (s : State) : decUnit B s = decStep B s := exec_decodeDec B s

/-- The ENC decoder and ENCODE, opcode by opcode. -/
theorem decodeEnc_cases (op : Byte) (payload : Payload) :
    (∃ i F, decodeEnc op payload = .instr i ∧ encodeFrame op payload = .ok F ∧
      ∀ s, exec i s = .next (s.encDeliver F)) ∨
    (op ∉ encodableOpcodes ∧ decodeEnc op payload = .reject (.unsupportedOpcode op) ∧
      encodeFrame op payload = .error (.unsupportedOpcode op)) := by
  by_cases h : op ∈ encodableOpcodes
  · refine .inl ?_
    simp only [encodableOpcodes, List.mem_cons, List.not_mem_nil, or_false] at h
    rcases h with rfl | rfl | rfl | rfl | rfl | rfl | rfl | rfl | rfl | rfl <;>
      exact ⟨_, _, rfl, rfl, fun s => rfl⟩
  · refine .inr ⟨h, ?_, ?_⟩
    all_goals
      simp only [encodableOpcodes, List.mem_cons, List.not_mem_nil, or_false, not_or] at h
      simp [decodeEnc, encodeFrame, h]

/-- Everything an ENC step can do. -/
theorem encUnit_cases (op : Byte) (payload : Payload) (s : State) :
    (∃ F, encodeFrame op payload = .ok F ∧ encUnit op payload s = .next (s.encDeliver F)) ∨
    (encodeFrame op payload = .error (.unsupportedOpcode op) ∧
      encUnit op payload s = .next (s.raise (.unsupportedOpcode op))) := by
  rcases decodeEnc_cases op payload with ⟨i, F, hd, hF, hx⟩ | ⟨-, hd, hF⟩
  · exact .inl ⟨F, hF, by simp [encUnit, runDecoded, hd, hx]⟩
  · exact .inr ⟨hF, by simp [encUnit, runDecoded, hd]⟩

@[simp] theorem runStarted_nil (s : State) : runStarted [] s = .next s := rfl

theorem runStarted_single (d : Decoded) (s : State) : runStarted [d] s = runDecoded d s := by
  simp only [runStarted]
  cases runDecoded d s <;> rfl

/-- The four ways the strobes can stand. -/
theorem runAction_drive_none (op : Byte) (p : Payload) (B : Frame) (s : State) :
    runAction (.drive ⟨false, op, p, false, B⟩) s = .next s := rfl

theorem runAction_drive_enc (op : Byte) (p : Payload) (B : Frame) (s : State) :
    runAction (.drive ⟨true, op, p, false, B⟩) s = encUnit op p s := runStarted_single _ s

theorem runAction_drive_dec (op : Byte) (p : Payload) (B : Frame) (s : State) :
    runAction (.drive ⟨false, op, p, true, B⟩) s = decStep B s :=
  (runStarted_single _ s).trans (exec_decodeDec B s)

theorem runAction_drive_both (op : Byte) (p : Payload) (B : Frame) {s t : State} (h : encUnit op p s = .next t) :
    runAction (.drive ⟨true, op, p, true, B⟩) s = decStep B t := by
  have : runAction (.drive ⟨true, op, p, true, B⟩) s = runStarted [.instr (decodeDec B)] t := by
    change runStarted (decodeEnc op p :: [.instr (decodeDec B)]) s = _
    rw [runStarted, show runDecoded (decodeEnc op p) s = .next t from h]
  rw [this, runStarted_single]
  exact exec_decodeDec B t

/-- Taking the oldest pending action (what `step` is, while an action is pending). -/
theorem step_cons {s : State} {act : HostAction} {rest : List HostAction} (h : s.pending = act :: rest) :
    step s = runAction act (s.withPending rest) := by
  simp [step, stepPending, h]

theorem step_nil {s : State} (h : s.pending = []) : step s = .next s := by
  simp [step, stepPending, h]

end Sys2Proof.Machine
end

