-- ==== Sys2Proof/Laws/Decode.lean ====
section
/-! SUPPORT. The small lemmas of the decoder's bit fields: a frame and its 64-bit word determine each other, a payload
is its four bytes, an opcode outside the ten matches no request row, and a request row is read under `VALID` only. -/

namespace Sys2Proof

open Machine

/-- A frame read back from its own word. -/
@[simp] theorem frameOfWord_wordOfFrame (F : Frame) : frameOfWord (wordOfFrame F) = F := by
  ext1 <;>
    (apply BitVec.eq_of_getLsbD_eq
     intro i hi
     simp only [frameOfWord, wordOfFrame, BitVec.getLsbD_append, BitVec.getLsbD_extractLsb']
     interval_cases i <;> simp)

/-- A word read back from its own frame. -/
@[simp] theorem wordOfFrame_frameOfWord (w : BitVec 64) : wordOfFrame (frameOfWord w) = w := by
  apply BitVec.eq_of_getLsbD_eq
  intro i hi
  simp only [frameOfWord, wordOfFrame, BitVec.getLsbD_append, BitVec.getLsbD_extractLsb']
  interval_cases i <;> simp

/-- A payload is the concatenation of its four bytes. -/
theorem payload_of_bytes (p : Payload) :
    p.extractLsb' 24 8 ++ p.extractLsb' 16 8 ++ p.extractLsb' 8 8 ++ p.extractLsb' 0 8 = p := by
  apply BitVec.eq_of_getLsbD_eq
  intro i hi
  simp only [BitVec.getLsbD_append, BitVec.getLsbD_extractLsb']
  interval_cases i <;> simp

/-- The four bytes of a frame's payload operand are the frame's payload bytes. -/
theorem posLayout_payloadOperand (F : Frame) : posLayout (payloadOperand F) = ⟨F.a, F.b, F.c, F.d⟩ := by
  simp only [posLayout, payloadOperand, PayloadBytes.mk.injEq]
  refine ⟨?_, ?_, ?_, ?_⟩ <;>
    (apply BitVec.eq_of_getLsbD_eq
     intro i hi
     simp only [BitVec.getLsbD_append, BitVec.getLsbD_extractLsb']
     interval_cases i <;> simp)

/-- An opcode byte outside the ten has no ZERO row. -/
theorem zeroRowInstr_of_not_encodable {op : Byte} (h : op ∉ encodableOpcodes) : zeroRowInstr op = none := by
  simp only [encodableOpcodes, List.mem_cons, List.not_mem_nil, or_false, not_or] at h
  simp [zeroRowInstr, h]

/-- A frame whose opcode byte is outside the ten matches no request row. -/
theorem matchRequestRow_of_not_encodable {F : Frame} (h : F.opcode ∉ encodableOpcodes) :
    matchRequestRow F = none := by
  have hz := zeroRowInstr_of_not_encodable h
  simp only [encodableOpcodes, List.mem_cons, List.not_mem_nil, or_false, not_or] at h
  simp [matchRequestRow, h, hz]

/-- Bytes with a wrong checksum are no request frame (R55). -/
theorem readRequestFrame_of_invalid {F : Frame} (h : valid F = false) : readRequestFrame F = none := by
  simp [readRequestFrame, h]

theorem readRequestFrame_of_valid {F : Frame} (h : valid F = true) : readRequestFrame F = matchRequestRow F := by
  simp [readRequestFrame, h]

/-- A frame whose opcode byte is outside the ten is no request frame. -/
theorem readRequestFrame_of_not_encodable {F : Frame} (h : F.opcode ∉ encodableOpcodes) :
    readRequestFrame F = none := by
  simp [readRequestFrame, matchRequestRow_of_not_encodable h]

/-- The frames ENC builds are read by match and mask, since they are valid. -/
theorem readRequestFrame_requestFrame (op : Byte) (x : PayloadBytes) :
    readRequestFrame (requestFrame op x) = matchRequestRow (requestFrame op x) :=
  readRequestFrame_of_valid (requestFrame_valid op x)

/-- The table decoder on the word of a frame. -/
theorem decodeTableWord_wordOfFrame (F : Frame) :
    decodeTableWord 64 (wordOfFrame F).toNat = some ((readRequestFrame F).getD (decodeDec F)) := by
  simp only [decodeTableWord, le_refl, if_true, BitVec.ofNat_toNat, BitVec.setWidth_eq, instrOfWord,
    frameOfWord_wordOfFrame]
  cases readRequestFrame F <;> rfl

/-- The table decoder on any word. -/
theorem decodeTableWord_toNat (w : BitVec 64) :
    decodeTableWord 64 w.toNat = some ((readRequestFrame (frameOfWord w)).getD (decodeDec (frameOfWord w))) := by
  simpa using decodeTableWord_wordOfFrame (frameOfWord w)

/-- DEC's decoder gives well-formed instructions only. -/
theorem decodeDec_wellFormed (B : Frame) : (decodeDec B).wellFormed = true := by
  unfold decodeDec
  split
  · split
    · rfl
    · split
      · rfl
      · simp [Instr.wellFormed, matchesSentinelRow, *]
  · simp [Instr.wellFormed, matchesSentinelRow, *]

end Sys2Proof
end

