-- ==== Sys2Proof/Laws/PerInstr.lean ====
section
/-! SUPPORT. The family StartsOne: the host action an instruction is encoded to starts exactly one operation. -/

namespace Sys2Proof.Laws.StartsOne

/-- The action that encodes `i` starts one operation, neither none nor two. -/
def Statement (i : Instr) : Prop := (started (encode i)).length = 1

theorem moveTo (payload : Payload) : Statement (.moveTo payload) := rfl
theorem calibrateTo (payload : Payload) : Statement (.calibrateTo payload) := rfl
theorem stop (payload : Payload) : Statement (.stop payload) := rfl
theorem readPosition (payload : Payload) : Statement (.readPosition payload) := rfl
theorem isMoving (payload : Payload) : Statement (.isMoving payload) := rfl
theorem readTemperature (payload : Payload) : Statement (.readTemperature payload) := rfl
theorem isCalibrated (payload : Payload) : Statement (.isCalibrated payload) := rfl
theorem moveWithSpeed (payload : Payload) : Statement (.moveWithSpeed payload) := rfl
theorem park (payload : Payload) : Statement (.park payload) := rfl
theorem readVersion (payload : Payload) : Statement (.readVersion payload) := rfl
theorem unrecognizedCommand (a b c d k : Byte) : Statement (.unrecognizedCommand a b c d k) := rfl
theorem badChecksum (a b c d k : Byte) : Statement (.badChecksum a b c d k) := rfl
theorem decode (bytes : Frame) : Statement (.decode bytes) := rfl
theorem checksum (bytes : Frame) : Statement (.checksum bytes) := rfl

end Sys2Proof.Laws.StartsOne
end

