-- ==== Sys2Proof/Tests/Slice0.lean ====
section
/-! SUPPORT. The model's own tests. Expected values are from spec/95_test_vectors.md (the row is named) and from the
encodings of 30_encoding.md, never from the model. The last part gives, for every statement of
Certificates/Slice0/Obligations.lean that has hypotheses, a concrete case that meets them. -/

namespace Sys2Proof.Tests

open Machine

/-! ### Helpers -/

/-- The next state, if there is one. -/
def nextOf : Result → Option State
  | .next t => some t
  | .fault _ => none
  | .refused _ => none

/-- The refusal, if there is one. -/
def refusalOf : Result → Option Refusal
  | .next _ => none
  | .fault _ => none
  | .refused r => some r

/-- EF after an operation from reset. -/
def efAfter (r : Result) : Option Frame := (nextOf r).bind fun t => t.ef

/-- DF after an operation. -/
def dfAfter (r : Result) : Option Frame := (nextOf r).bind fun t => t.df

/-- The frame of VB1: a move to 2000. -/
def vb1 : Frame := ⟨0x4D, 0x4D, 0x00, 0x00, 0x07, 0xD0, 0x00, 0x71⟩

/-- The frame of VC2: the position -2000. -/
def vc2 : Frame := ⟨0x4D, 0x50, 0xFF, 0xFF, 0xF8, 0x30, 0x00, 0xC3⟩

/-- VD1: a read-position frame whose checksum is one too small. -/
def vd1 : Frame := ⟨0x4D, 0x50, 0, 0, 0, 0, 0, 0x9C⟩

/-- A state with a result in both units. -/
def busy : State :=
  { State.reset with encStatus := .ok, ef := some vb1, decStatus := .ok, df := some vc2 }

/-- A state after two failures. -/
def failed : State :=
  { State.reset with encStatus := .errUnsupported, decStatus := .errChecksum, decExpected := some 0x9D,
                     decActual := some 0x9C }

/-! ### Well-formedness: the one check, on each of the two rows it keeps apart -/

theorem test_illformed_decode_of_unrecognized_row :
    (Instr.decode ⟨0x4D, 0x21, 0, 0, 0, 0, 0, 0x6E⟩).wellFormed = false := by decide
theorem test_illformed_decode_of_badChecksum_row :
    (Instr.decode ⟨0x4D, 0x3F, 1, 2, 3, 4, 0, 0⟩).wellFormed = false := by decide
theorem test_wellformed_decode_with_other_marker :
    (Instr.decode ⟨0x4C, 0x21, 0, 0, 0, 0, 0, 0x6D⟩).wellFormed = true := by decide

/-! ### Decoding: words written out from R40, R42, R46 -/

theorem test_word_M : decodeTableWord 64
    0b0100110101001101000000000000000000000111110100000000000001110001 = some (.moveTo 2000) := by decide
theorem test_word_Z : decodeTableWord 64 0x4D5A0001000000A8 = some (.calibrateTo 0x00010000) := by decide
theorem test_word_H : decodeTableWord 64
    0b0100110101001000000000000000000000000000000000000000000010010101 = some (.stop 0) := by decide
theorem test_word_P : decodeTableWord 64 0x4D5000000000009D = some (.readPosition 0) := by decide
theorem test_word_I : decodeTableWord 64 0x4D49000000000096 = some (.isMoving 0) := by decide
theorem test_word_T : decodeTableWord 64 0x4D540000000000A1 = some (.readTemperature 0) := by decide
theorem test_word_W : decodeTableWord 64 0x4D570000000000A4 = some (.isCalibrated 0) := by decide
theorem test_word_R : decodeTableWord 64
    0b0100110101010010000000000000000000000000100001010000000000100100 = some (.moveWithSpeed 0x85) := by decide
theorem test_word_G : decodeTableWord 64 0x4D47000000000094 = some (.park 0) := by decide
theorem test_word_V : decodeTableWord 64 0x4D560000000000A3 = some (.readVersion 0) := by decide
theorem test_word_unrecognized : decodeTableWord 64
    0b0100110100100001101010101011101111001100110111010000000001111100
    = some (.unrecognizedCommand 0xAA 0xBB 0xCC 0xDD 0x7C) := by decide
theorem test_word_badChecksum : decodeTableWord 64 0x4D3F00000000008C = some (.badChecksum 0 0 0 0 0x8C) := by decide
theorem test_word_DECODE_VC26 : decodeTableWord 64 0x4D710102030400C8
    = some (.decode ⟨0x4D, 0x71, 1, 2, 3, 4, 0, 0xC8⟩) := by decide
/-- An H word with a payload byte set is no H row (the mask of R74's row). -/
theorem test_word_H_with_payload_is_DECODE : decodeTableWord 64 0x4D48000000010096
    = some (.decode ⟨0x4D, 0x48, 0, 0, 0, 1, 0, 0x96⟩) := by decide
/-- VD17: a request row with a wrong byte 7 is not that row (R55). -/
theorem test_word_M_with_bad_checksum_is_DECODE : decodeTableWord 64 0x4D4D000007D00070
    = some (.decode ⟨0x4D, 0x4D, 0, 0, 0x07, 0xD0, 0, 0x70⟩) := by decide
theorem test_ports_CHECKSUM : started (.evalChecksum vb1) = [.instr (.checksum vb1)] := by decide
theorem test_ports_reject_lower_case : decodeEnc 0x6D 0 = .reject (.unsupportedOpcode 0x6D) := by decide

/-! ### One operation at a time -/

/-- VB7 -/
theorem test_moveTo_minus2000 : efAfter (exec (.moveTo 0xFFFFF830) .reset)
    = some ⟨0x4D, 0x4D, 0xFF, 0xFF, 0xF8, 0x30, 0x00, 0xC0⟩ := by decide
/-- VB6 -/
theorem test_moveTo_byte_order : efAfter (exec (.moveTo 0x12345678) .reset)
    = some ⟨0x4D, 0x4D, 0x12, 0x34, 0x56, 0x78, 0x00, 0xAE⟩ := by decide
/-- VB10 -/
theorem test_calibrateTo_only_b : efAfter (exec (.calibrateTo 0x00010000) .reset)
    = some ⟨0x4D, 0x5A, 0x00, 0x01, 0x00, 0x00, 0x00, 0xA8⟩ := by decide
/-- VB13 -/
theorem test_stop_ignores_payload : efAfter (exec (.stop 0xDEADBEEF) .reset)
    = some ⟨0x4D, 0x48, 0, 0, 0, 0, 0, 0x95⟩ := by decide
/-- VB14 -/
theorem test_readPosition : efAfter (exec (.readPosition 0) .reset) = some ⟨0x4D, 0x50, 0, 0, 0, 0, 0, 0x9D⟩ := by decide
/-- VB15 -/
theorem test_isMoving : efAfter (exec (.isMoving 0) .reset) = some ⟨0x4D, 0x49, 0, 0, 0, 0, 0, 0x96⟩ := by decide
/-- VB16 -/
theorem test_readTemperature : efAfter (exec (.readTemperature 0) .reset)
    = some ⟨0x4D, 0x54, 0, 0, 0, 0, 0, 0xA1⟩ := by decide
/-- VB17 -/
theorem test_isCalibrated : efAfter (exec (.isCalibrated 0) .reset) = some ⟨0x4D, 0x57, 0, 0, 0, 0, 0, 0xA4⟩ := by decide
/-- VB18 -/
theorem test_park : efAfter (exec (.park 0) .reset) = some ⟨0x4D, 0x47, 0, 0, 0, 0, 0, 0x94⟩ := by decide
/-- VB19 -/
theorem test_readVersion : efAfter (exec (.readVersion 0) .reset) = some ⟨0x4D, 0x56, 0, 0, 0, 0, 0, 0xA3⟩ := by decide
/-- VB26 -/
theorem test_moveWithSpeed_drops_high_bits : efAfter (exec (.moveWithSpeed 0x12345640) .reset)
    = some ⟨0x4D, 0x52, 0, 0, 0, 0x40, 0, 0xDF⟩ := by decide
/-- VB23 -/
theorem test_moveWithSpeed_all_ones : efAfter (exec (.moveWithSpeed 0xFF) .reset)
    = some ⟨0x4D, 0x52, 0, 0, 0, 0xFF, 0, 0x9E⟩ := by decide
/-- VB27, VB28 and R15: the previous frame is gone. -/
theorem test_sentinels_not_encodable : [0x21, 0x3F, 0x00, 0xFF, 0x4C, 0x4E].all
    (fun op => nextOf (encUnit op 5 busy) == some { busy with encStatus := .errUnsupported, ef := none }) = true := by decide
/-- VC24 -/
theorem test_unrecognizedCommand : dfAfter (exec (.unrecognizedCommand 0xAA 0xBB 0xCC 0xDD 0x7C) failed)
    = some ⟨0x4D, 0x21, 0xAA, 0xBB, 0xCC, 0xDD, 0, 0x7C⟩ := by decide
/-- VC25 -/
theorem test_badChecksum : dfAfter (exec (.badChecksum 0 0 0 0 0x8C) .reset)
    = some ⟨0x4D, 0x3F, 0, 0, 0, 0, 0, 0x8C⟩ := by decide
/-- VD1 -/
theorem test_decode_checksum_one_too_small : nextOf (exec (.decode vd1) busy)
    = some { busy with decStatus := .errChecksum, df := none, decExpected := some 0x9D, decActual := some 0x9C } := by decide
/-- VC27, from a failed state: the diagnostics lose their value. -/
theorem test_decode_other_marker : nextOf (exec (.decode ⟨0x58, 0x50, 0, 0, 0, 0, 0, 0xA8⟩) failed)
    = some { failed with decStatus := .ok, df := some ⟨0x58, 0x50, 0, 0, 0, 0, 0, 0xA8⟩,
                         decExpected := none, decActual := none } := by decide
/-- VA2 -/
theorem test_checksum_maximum : (nextOf (exec (.checksum ⟨0xFF, 0xFF, 0xFF, 0xFF, 0xFF, 0xFF, 0xFF, 0⟩) .reset)).map
    (fun t => t.hostSeen) = some (some 0xF9) := by decide
/-- VA9 -/
theorem test_checksum_wraps_to_zero : checksum ⟨0x80, 0x80, 0, 0, 0, 0, 0, 7⟩ = 0 := by decide

/-! ### Views: VC6, VC8, VC12, VC16, VC18 -/

theorem test_views_VC6 : payload32 ⟨0x4D, 0x50, 0x12, 0x34, 0x56, 0x78, 0, 0xB1⟩ = 0x12345678
    ∧ hi16 ⟨0x4D, 0x50, 0x12, 0x34, 0x56, 0x78, 0, 0xB1⟩ = 0x1234 := by decide
theorem test_views_VC8 : delivered ⟨0x4D, 0x54, 0xFF, 0xF6, 0xFF, 0x9C, 0, 0x31⟩ = .environment (-10) (-100) := by decide
theorem test_views_VC2 : delivered vc2 = .position (-2000) := by decide
theorem test_views_VC12 : delivered ⟨0x4D, 0x49, 0, 0, 0, 0xFE, 0, 0x94⟩ = .moving 0 := by decide
theorem test_views_VC16 : delivered ⟨0x4D, 0x52, 0, 0, 0, 0x85, 0, 0x24⟩ = .echoedSpeed 0x85 1 5 := by decide
theorem test_views_VC18 : delivered ⟨0x4D, 0x56, 0, 0, 1, 2, 0, 0xA6⟩ = .version 1 2 := by decide

/-! ### Host actions -/

theorem test_reset_action : nextOf (runAction .reset busy) = some State.reset := by decide
theorem test_read_after_reset_refused : refusalOf (runAction (.read (.ef 0)) .reset)
    = some (.readOfNoValue (.ef 0)) := by decide
/-- EF[7] and EF[4] of VB1, and the diagnostics of VD1 (R14, R19). -/
theorem test_read_registers : readOutput (.ef 7) busy = some 0x71 ∧ readOutput (.ef 4) busy = some 0x07 ∧
    readOutput .decExpected failed = some 0x9D ∧ readOutput .decActual failed = some 0x9C ∧
    readOutput .encStatus failed = some 2 ∧ readOutput .decStatus busy = some 1 := by decide
theorem test_read_payload : (nextOf (runAction (.read .payloadI32) busy)).map (fun t => t.hostSeen)
    = some (some (-2000)) := by decide
/-- P5 step 3: both units in one step. -/
theorem test_both_started : nextOf (runAction (.drive ⟨true, 0x48, 0, true, ⟨0x4D, 0x52, 0, 0, 0, 0x85, 0, 0x24⟩⟩) failed)
    = some { State.reset with encStatus := .ok, ef := some ⟨0x4D, 0x48, 0, 0, 0, 0, 0, 0x95⟩,
                              decStatus := .ok, df := some ⟨0x4D, 0x52, 0, 0, 0, 0x85, 0, 0x24⟩ } := by decide
/-- A table word placed after reset is run by the first step, and nothing is left pending. -/
theorem test_first_step_after_reset : nextOf (step (State.reset.withFetchWord 64 0x4D4D000007D00071))
    = some { State.reset with encStatus := .ok, ef := some vb1 } := by decide

/-! ### Witnesses: every hypothesis of a statement is met, at boundary values where it has a range -/

theorem busy_meets_Inv : Inv busy where
  ef_tag := by decide
  df_tag := by decide
  expected_tag := by decide
  actual_tag := by decide
  ef_encoded := by
    rintro F h
    cases h
    exact ⟨0x4D, 2000, by decide⟩
  df_valid := by
    rintro F h
    cases h
    decide
  diagnostics_differ := by
    intro e x h
    cases h

theorem failed_meets_Inv : Inv failed where
  ef_tag := by decide
  df_tag := by decide
  expected_tag := by decide
  actual_tag := by decide
  ef_encoded := by
    intro F h
    cases h
  df_valid := by
    intro F h
    cases h
  diagnostics_differ := by
    intro e x he hx
    cases he
    cases hx
    decide

theorem witness_opcode_clauses : ∀ op ∈ ([0x4D, 0x5A, 0x48, 0x50, 0x49, 0x54, 0x57, 0x47, 0x56, 0x52, 0x71] : List Byte),
    (sealFrame 0x4D op 0x80 0xFF 0x7F 0x01 0).opcode = op ∧ valid (sealFrame 0x4D op 0x80 0xFF 0x7F 0x01 0) = true := by decide
theorem witness_UnsupportedOpcodesFailAndTheTenDoNot : ∀ op ∈ ([0x21, 0x3F, 0x6D, 0x00, 0xFF, 0x4C, 0x4E] : List Byte),
    op ∉ ([0x47, 0x48, 0x49, 0x4D, 0x50, 0x52, 0x54, 0x56, 0x57, 0x5A] : List Byte) := by decide
theorem witness_strobes_off : (⟨false, 0x4D, 2000, true, vd1⟩ : Pins).encStart = false ∧
    (⟨true, 0x4D, 2000, false, vd1⟩ : Pins).decStart = false := by decide
theorem witness_EncodeRoundTripsThroughDecode : encodeFrame 0x4D 2000 = .ok vb1 ∧
    encodeFrame 0x5A 0xFFFFFFFF = .ok (sealFrame 0x4D 0x5A 0xFF 0xFF 0xFF 0xFF 0) ∧
    encodeFrame 0x52 0x1FF = .ok ⟨0x4D, 0x52, 0, 0, 0, 0xFF, 0, 0x9E⟩ := by decide
theorem witness_EncodeDropsExactlyTheUncarriedBits :
    encodeFrame 0x3F 0 = .error (.unsupportedOpcode 0x3F) ∧ (0x48 : Byte) ∈ ([0x48, 0x50] : List Byte) := by decide
theorem witness_SerialAdditionGivesTheChecksum : (coveredBytes vc2).reverse.Perm (coveredBytes vc2) :=
  List.reverse_perm _
theorem witness_OneAlteredByte_first_and_last : valid vb1 = true ∧ (0x4C : Byte) ≠ byteAt vb1 0 ∧
    (0x70 : Byte) ≠ byteAt vb1 7 ∧ (6 : Fin 8) ≠ 7 ∧ (0x01 : Byte) ≠ byteAt vb1 6 := by decide
/-- VD30, VD33: equal sums with the same byte 7, and byte 5 changed together with byte 7; the first and the last
covered index. -/
theorem witness_ChecksumMisses_compensated : valid vb1 = true ∧
    (⟨0x4D, 0x4D, 0, 0, 0x08, 0xCF, 0, 0x71⟩ : Frame).checksum = vb1.checksum ∧
    ((coveredBytes ⟨0x4D, 0x4D, 0, 0, 0x08, 0xCF, 0, 0x71⟩).map BitVec.toNat).sum % 256
      = ((coveredBytes vb1).map BitVec.toNat).sum % 256 ∧
    (0 : Fin 8) ≠ 7 ∧ (5 : Fin 8) ≠ 7 ∧ (6 : Fin 8) ≠ 7 := by decide
theorem witness_ChecksumMissesPermutations : valid vb1 = true ∧
    (coveredBytes ⟨0x4D, 0x4D, 0, 0, 0xD0, 0x07, 0, 0x71⟩).Perm (coveredBytes vb1) ∧
    (⟨0x4D, 0x4D, 0, 0, 0xD0, 0x07, 0, 0x71⟩ : Frame).checksum = vb1.checksum := by decide
theorem witness_decode_valid_and_invalid :
    vb1.checksum = vb1.marker + vb1.opcode + vb1.a + vb1.b + vb1.c + vb1.d + vb1.reserved ∧
    vd1.checksum ≠ vd1.marker + vd1.opcode + vd1.a + vd1.b + vd1.c + vd1.d + vd1.reserved ∧ valid vd1 = false := by decide
theorem witness_SentinelResponsesWithABadChecksumRaise :
    (0x6D : Byte) ≠ 0x6E + 0 + 0 + 0 + 0 ∧ (0x8D : Byte) ≠ 0x8C + 0 + 0 + 0 + 0 := by decide
theorem witness_views : busy.df = some vc2 := by decide
theorem witness_RegisterOutputsShowTheirRegisters : busy.ef = some vb1 ∧ busy.df = some vc2 ∧
    State.reset.ef = none ∧ failed.df = none ∧ failed.decExpected = some 0x9D ∧ failed.decActual = some 0x9C ∧
    State.reset.decExpected = none ∧ State.reset.decActual = none := by decide
theorem witness_EchoedTarget_bounds : (-2147483648 : Int) ≤ -2147483648 ∧ (2147483647 : Int) ≤ 2147483647 := by decide
theorem witness_TwoFaultsInOneStep :
    (0x3F : Byte) ∉ ([0x47, 0x48, 0x49, 0x4D, 0x50, 0x52, 0x54, 0x56, 0x57, 0x5A] : List Byte) ∧ valid vd1 = false := by decide
theorem witness_ResultsLast_read : (nextOf (runAction (.read .encStatus) busy)).isSome = true ∧
    HostAction.read .encStatus ≠ .reset := by decide
theorem witness_ResultsLast_other_unit : (nextOf (runAction (.drive ⟨false, 0, 0, true, vd1⟩) busy)).isSome = true ∧
    (nextOf (runAction (.drive ⟨true, 0x3F, 0, false, vd1⟩) busy)).isSome = true := by decide
theorem witness_FaultsStay : (nextOf (runAction (.drive ⟨false, 0, 0, true, vb1⟩) (busy.raise (.unsupportedOpcode 0x3F)))).isSome
    = true ∧ (nextOf (runAction (.drive ⟨true, 0x4D, 0, false, vb1⟩) (busy.raise (.checksumError 1 2)))).isSome = true ∧
    (nextOf (runAction (.read .decStatus) (busy.raise (.checksumError 1 2)))).isSome = true := by decide
theorem witness_UnitsShareNoState : (nextOf (exec (.moveTo 1) busy)).isSome = true ∧
    (nextOf (exec (.decode vd1) failed)).isSome = true ∧ (nextOf (exec (.checksum vd1) failed)).isSome = true ∧
    (nextOf (exec (.badChecksum 1 2 3 4 5) busy)).isSome = true := by decide
theorem witness_Reads_allowed : Inv busy ∧ readAllowed (.ef 7) busy = true ∧ readAllowed .hi16S busy = true :=
  ⟨busy_meets_Inv, by decide, by decide⟩
theorem witness_Reads_refused : Inv failed ∧ readAllowed (.ef 0) failed = false ∧ readAllowed .decActual failed = true :=
  ⟨failed_meets_Inv, by decide, by decide⟩
theorem witness_PortEncodingRoundTrips : (Instr.moveTo 0xFFFFFFFF).wellFormed = true ∧
    (Instr.decode vd1).wellFormed = true ∧ (Instr.unrecognizedCommand 1 2 3 4 5).wellFormed = true := by decide
theorem witness_TableWordRoundTrips : hasTableWord (.moveWithSpeed 0xFF) = true ∧ hasTableWord (.stop 0) = true ∧
    hasTableWord (.calibrateTo 0xFFFFFFFF) = true ∧ hasTableWord (.badChecksum 1 2 3 4 5) = true ∧
    hasTableWord (.decode ⟨0x4D, 0x48, 0, 0, 0, 1, 0, 0x96⟩) = true ∧ hasTableWord (.decode vd1) = true := by decide
theorem witness_RequestFramesReadBack : readRequestFrame vb1 = some (.moveTo 2000) ∧
    encodeFrame 0x48 7 = .ok ⟨0x4D, 0x48, 0, 0, 0, 0, 0, 0x95⟩ := by decide
theorem witness_TableRows_match_valid : (0x4D48000000000095 : BitVec 64) &&& 0xFFFFFFFFFFFFFF00 = 0x4D48000000000000 ∧
    valid (frameOfWord 0x4D48000000000095) = true ∧
    (0x4D2100000000006E : BitVec 64) &&& 0xFFFF00000000FF00 = 0x4D21000000000000 ∧
    valid (frameOfWord 0x4D2100000000006E) = true := by decide
theorem witness_TableRows_match_invalid : (0x4D48000000000094 : BitVec 64) &&& 0xFFFFFFFFFFFFFF00 = 0x4D48000000000000 ∧
    valid (frameOfWord 0x4D48000000000094) = false ∧ matchesSentinelRow (frameOfWord 0x4D48000000000094) = false ∧
    (0x4D3F00000000008D : BitVec 64) &&& 0xFFFF00000000FF00 = 0x4D3F000000000000 ∧
    valid (frameOfWord 0x4D3F00000000008D) = false := by decide
theorem witness_TableRows_none : ∀ row ∈ opcodeRows, (0x58500000000000A8 : BitVec 64) &&& row.mask ≠ row.pattern := by decide
theorem witness_StepRunsTheDecodedInstruction : (busy.withPending [encode (.stop 0), .reset]).pending
    = encode (.stop 0) :: [.reset] ∧ busy.pending = [] := by decide
theorem witness_StepRunsThePlacedTableWord : decodeTableWord 64 0 = some (.decode zeroFrame) ∧
    decodeTableWord 64 0xFFFFFFFFFFFFFFFF = some (.decode ⟨0xFF, 0xFF, 0xFF, 0xFF, 0xFF, 0xFF, 0xFF, 0xFF⟩) := by decide
theorem witness_RunsNeverHalt : readsStatusOnly [.reset, .drive ⟨true, 0x3F, 0, true, vd1⟩, .read .decStatus,
    .evalChecksum vb1] = true := by decide
theorem witness_OnlyAForbiddenReadIsRefused : nextReadAllowed (failed.withPending [.read .decActual]) = true ∧
    nextReadAllowed (failed.withPending [.read .decOpcode]) = false := by decide
theorem witness_StepKeepsTheRegisterInvariant : Inv busy ∧ step busy = .next busy := ⟨busy_meets_Inv, rfl⟩

end Sys2Proof.Tests
end

section
/-! PROOFS. The statements of 10_state.md: the state, its registers and their tags (O53, O40, O43, O38, O49, O54, O55). -/

namespace Sys2Proof

open Machine

/-! ### Each named update keeps the register invariant -/

/-- The host's own two fields are no part of the invariant (log 1). -/
theorem Inv.withPending {s : State} (h : Inv s) (as : List HostAction) : Inv (s.withPending as) := { h with }

/-- The host's own two fields are no part of the invariant (log 3). -/
theorem Inv.handToHost {s : State} (h : Inv s) (v : Int) : Inv (s.handToHost v) := { h with }

/-- A frame ENCODE returns may be delivered to EF (R14). -/
theorem Inv.encDeliver {s : State} (h : Inv s) {op : Byte} {p : Payload} {F : Frame}
    (hF : encodeFrame op p = .ok F) : Inv (s.encDeliver F) :=
  { h with
    ef_tag := by simp
    ef_encoded := by
      intro G hG
      cases hG
      exact ⟨op, p, hF⟩ }

/-- A failed ENCODE leaves EF without a value (R15). -/
theorem Inv.raise_unsupported {s : State} (h : Inv s) (op : Byte) :
    Inv (s.raise (.unsupportedOpcode op)) :=
  { h with
    ef_tag := by simp
    ef_encoded := by simp }

/-- A valid frame may be delivered to DF (R17). -/
theorem Inv.decDeliver {s : State} (h : Inv s) {F : Frame} (hF : valid F = true) :
    Inv (s.decDeliver F) :=
  { h with
    df_tag := by simp
    expected_tag := by simp
    actual_tag := by simp
    df_valid := by
      intro G hG
      cases hG
      exact hF
    diagnostics_differ := by simp }

/-- A failed DECODE leaves DF without a value and the two differing diagnostics (R18, R19). -/
theorem Inv.raise_checksumError {s : State} (h : Inv s) {e x : Byte} (hne : e ≠ x) :
    Inv (s.raise (.checksumError e x)) :=
  { h with
    df_tag := by simp
    expected_tag := by simp
    actual_tag := by simp
    df_valid := by simp
    diagnostics_differ := by
      intro e' x' he hx
      cases he
      cases hx
      exact hne }

/-- Settles O54: after reset no result register holds a value and no status asks for one. -/
theorem resetMeetsTheRegisterInvariant : Obligations.ResetMeetsTheRegisterInvariant where
  ef_tag := by decide
  df_tag := by decide
  expected_tag := by decide
  actual_tag := by decide
  ef_encoded := by simp [State.reset]
  df_valid := by simp [State.reset]
  diagnostics_differ := by simp [State.reset]

/-- A reset leaves the registers of `State.reset`, from whatever state (R150). -/
theorem inv_resetUnits (s : State) : Inv s.resetUnits :=
  { resetMeetsTheRegisterInvariant with }

/-! ### The operations of the units complete and keep the invariant -/

/-- The ENC step on any opcode and payload. -/
theorem encUnit_completes_inv {s : State} (op : Byte) (p : Payload) (h : Inv s) :
    ∃ t, encUnit op p s = .next t ∧ Inv t := by
  obtain ⟨F, hF, ht⟩ | ⟨-, ht⟩ := encUnit_cases op p s
  · exact ⟨_, ht, h.encDeliver hF⟩
  · exact ⟨_, ht, h.raise_unsupported op⟩

/-- The checksum error's two diagnostics differ because the bytes are not valid (R61). -/
theorem checksum_ne_of_invalid {B : Frame} (h : valid B = false) : checksum B ≠ B.checksum := by
  intro he
  rw [(valid_iff B).mpr he.symm] at h
  cases h

/-- The DEC step on any 8 bytes. -/
theorem decStep_completes_inv {s : State} (B : Frame) (h : Inv s) :
    ∃ t, decStep B s = .next t ∧ Inv t := by
  obtain ⟨hv, ht⟩ | ⟨hv, ht⟩ := decStep_cases B s
  · exact ⟨_, ht, h.decDeliver hv⟩
  · exact ⟨_, ht, h.raise_checksumError (checksum_ne_of_invalid hv)⟩

/-- Driving the ports, for each way the two strobes can stand. -/
theorem drive_completes_inv {s : State} (pins : Pins) (h : Inv s) :
    ∃ t, runAction (.drive pins) s = .next t ∧ Inv t := by
  obtain ⟨encStart, op, p, decStart, B⟩ := pins
  cases encStart <;> cases decStart
  case false.false => exact ⟨s, runAction_drive_none op p B s, h⟩
  case false.true => simpa only [runAction_drive_dec] using decStep_completes_inv B h
  case true.false => simpa only [runAction_drive_enc] using encUnit_completes_inv op p h
  case true.true =>
    obtain ⟨u, hu, hinv⟩ := encUnit_completes_inv op p h
    simpa only [runAction_drive_both op p B hu] using decStep_completes_inv B hinv

/-- Whatever the host does, a completing action keeps the invariant. -/
theorem runAction_keeps_inv {s t : State} (act : HostAction) (h : Inv s) (ht : runAction act s = .next t) :
    Inv t := by
  cases act with
  | reset =>
    cases ht
    exact inv_resetUnits s
  | drive pins =>
    obtain ⟨u, hu, hinv⟩ := drive_completes_inv pins h
    cases hu.symm.trans ht
    exact hinv
  | read what =>
    obtain ⟨v, -, hv⟩ | ⟨-, hr⟩ := hostRead_cases what s
    · cases hv.symm.trans ht
      exact h.handToHost v
    · cases hr.symm.trans ht
  | evalChecksum B =>
    cases ht
    exact h.handToHost _

/-- Settles O53: a step performs the first pending action, if there is one. -/
theorem stepKeepsTheRegisterInvariant : Obligations.StepKeepsTheRegisterInvariant := by
  intro s t h ht
  cases hp : s.pending with
  | nil =>
    cases (step_nil hp).symm.trans ht
    exact h
  | cons act rest => exact runAction_keeps_inv act (h.withPending rest) ((step_cons hp).symm.trans ht)

/-! ### What an instruction does, by the unit it belongs to -/

/-- The unit of an instruction fixes which operation it is: one delivery of ENC, one DEC operation, or one number handed
to the host; and its operand (frame, bytes, number) is the same in every state (R10, R23). -/
theorem exec_cases_by_unit (i : Instr) :
    (unitOf i = .enc ∧ ∃ F, ∀ s, exec i s = .next (s.encDeliver F)) ∨
    (unitOf i = .dec ∧ ∃ B, ∀ s, exec i s = decStep B s) ∨
    (unitOf i = .function ∧ ∃ v, ∀ s, exec i s = .next (s.handToHost v)) := by
  cases i with
  | unrecognizedCommand a b c d k => exact .inr (.inl ⟨rfl, _, fun _ => rfl⟩)
  | badChecksum a b c d k => exact .inr (.inl ⟨rfl, _, fun _ => rfl⟩)
  | decode B => exact .inr (.inl ⟨rfl, B, fun _ => rfl⟩)
  | checksum B => exact .inr (.inr ⟨rfl, _, fun _ => rfl⟩)
  | _ => exact .inl ⟨rfl, _, fun _ => rfl⟩

/-- Settles O40: each of the three operations writes its own unit's fields, from its operand alone. -/
theorem unitsShareNoStateAndKeepNoHistory : Obligations.UnitsShareNoStateAndKeepNoHistory := by
  intro i s s' t t' ht ht'
  obtain ⟨hu, F, hx⟩ | ⟨hu, B, hx⟩ | ⟨hu, v, hx⟩ := exec_cases_by_unit i <;> rw [hx] at ht ht'
  · cases ht; cases ht'; simp [hu]
  · cases hv : valid B
    · rw [decStep_of_invalid _ hv] at ht ht'
      cases ht; cases ht'; simp [hu]
    · rw [decStep_of_valid _ hv] at ht ht'
      cases ht; cases ht'; simp [hu]
  · cases ht; cases ht'; simp [hu]

/-! ### The encoding of an instruction as a host action -/

@[simp] theorem started_driveEnc (op : Byte) (p : Payload) : started (driveEnc op p) = [decodeEnc op p] := rfl

@[simp] theorem started_driveDec (B : Frame) : started (driveDec B) = [.instr (decodeDec B)] := rfl

/-- Bytes that match no sentinel row are read as DECODE of themselves. -/
theorem decodeDec_of_no_sentinel {B : Frame} (h : matchesSentinelRow B = false) : decodeDec B = .decode B := by
  unfold decodeDec
  split
  · rename_i hc
    obtain ⟨hu, hb⟩ : B.opcode ≠ opUnrecognizedCommand ∧ B.opcode ≠ opBadChecksum := by
      simpa [matchesSentinelRow, hc] using h
    rw [if_neg hu, if_neg hb]
  · rfl

/-- Settles O43: an ENC row by its opcode byte, a sentinel row by its constants; only DECODE needs its check, that the
bytes match no sentinel row. -/
theorem portEncodingRoundTrips : Obligations.PortEncodingRoundTrips := by
  intro i hwf
  cases i with
  | decode B =>
    have hB : matchesSentinelRow B = false := by simpa [Instr.wellFormed] using hwf
    simp [encode, decodeDec_of_no_sentinel hB]
  | _ => rfl

/-- The action an instruction is encoded to is a start, never a reset or a read. -/
theorem runAction_encode_eq_runStarted (i : Instr) (s : State) :
    runAction (encode i) s = runStarted (started (encode i)) s := by
  cases i <;> rfl

/-- Performing the encoding of an instruction is executing the instruction. -/
theorem runAction_encode {i : Instr} (hwf : i.wellFormed = true) (s : State) :
    runAction (encode i) s = exec i s := by
  rw [runAction_encode_eq_runStarted, portEncodingRoundTrips i hwf, runStarted_single]
  rfl

/-- Settles O49, from the round trip of the encoding. -/
theorem stepRunsTheDecodedInstruction : Obligations.StepRunsTheDecodedInstruction :=
  ⟨fun _ _ _ hwf hp => (step_cons hp).trans (runAction_encode hwf _), fun _ => step_nil⟩

/-! ### Status codes and register outputs -/

/-- There is no constructor for the code 3 (D26). -/
theorem encCode_ne_three (e : EncStatus) : encCode e ≠ 3 := by cases e <;> decide

/-- There is no constructor for the code 3 (D26). -/
theorem decCode_ne_three (d : DecStatus) : decCode d ≠ 3 := by cases d <;> decide

/-- Settles O38: each code by its definition, and no constructor has the code 3. -/
theorem statusCodesAreZeroOneTwo : Obligations.StatusCodesAreZeroOneTwo :=
  ⟨rfl, rfl, rfl, rfl, rfl, rfl, fun s => ⟨encCode_ne_three s.encStatus, decCode_ne_three s.decStatus⟩⟩

theorem readOutput_encStatus (s : State) : readOutput .encStatus s = some ((encCode s.encStatus).toNat : Int) := rfl

theorem readOutput_decStatus (s : State) : readOutput .decStatus s = some ((decCode s.decStatus).toNat : Int) := rfl

theorem readOutput_ef_of_some {s : State} {F : Frame} (h : s.ef = some F) (i : Fin 8) :
    readOutput (.ef i) s = some ((byteAt F i).toNat : Int) := by simp [readOutput, h]

theorem readOutput_df_of_some {s : State} {F : Frame} (h : s.df = some F) (i : Fin 8) :
    readOutput (.df i) s = some ((byteAt F i).toNat : Int) := by simp [readOutput, h]

theorem readOutput_ef_of_none {s : State} (h : s.ef = none) (i : Fin 8) :
    readOutput (.ef i) s = none := by simp [readOutput, h]

theorem readOutput_df_of_none {s : State} (h : s.df = none) (i : Fin 8) :
    readOutput (.df i) s = none := by simp [readOutput, h]

/-- A failed DECODE shows the computed checksum and the received byte 7 (R19, R90). -/
theorem decode_of_invalid_shows_diagnostics {B : Frame} (h : valid B = false) (s : State) :
    ∃ t, exec (.decode B) s = .next t ∧ readOutput .decExpected t = some ((checksum B).toNat : Int) ∧
      readOutput .decActual t = some (B.checksum.toNat : Int) :=
  ⟨_, decStep_of_invalid s h, rfl, rfl⟩

/-- Settles O55: the status codes, the bytes of EF and DF by index, the diagnostics. -/
theorem registerOutputsShowTheirRegisters : Obligations.RegisterOutputsShowTheirRegisters := by
  refine ⟨fun s => ?_, fun F s h => ?_, fun F s h => ?_, fun s => ?_, fun B s h => ?_⟩
  · simp only [readOutput_encStatus, readOutput_decStatus]
    refine ⟨?_, ?_, ?_, ?_, ?_, ?_⟩ <;> (intro h; rw [h]; rfl)
  · have read := readOutput_ef_of_some h
    exact ⟨read 0, read 1, read 2, read 3, read 4, read 5, read 6, read 7⟩
  · have read := readOutput_df_of_some h
    exact ⟨read 0, read 1, read 2, read 3, read 4, read 5, read 6, read 7⟩
  · exact ⟨rfl, rfl, readOutput_ef_of_none, readOutput_df_of_none⟩
  · exact decode_of_invalid_shows_diagnostics h s

end Sys2Proof
end

section
/-! PROOFS. The statements of 20_memory.md: the payload views of a frame (O29) and the two units started together (O41). -/

namespace Sys2Proof

open Machine

/-! ### The payload views -/

/-- The two 16-bit views are the two halves of the 32-bit one (R34). -/
theorem payload32_eq_hi16_append_lo16 (F : Frame) : payload32 F = hi16 F ++ lo16 F :=
  BitVec.append_assoc.trans (BitVec.cast_eq ..)

/-- Settles O29: the halves by `payload32_eq_hi16_append_lo16`; the low byte is the last one appended. -/
theorem viewsAtThreeWidthsAgree : Obligations.ViewsAtThreeWidthsAgree := by
  intro F
  refine ⟨?_, ?_, ?_⟩
  · rw [payload32_eq_hi16_append_lo16]
    exact BitVec.extractLsb'_append_eq_left
  · rw [payload32_eq_hi16_append_lo16]
    exact BitVec.extractLsb'_append_eq_right
  · exact BitVec.extractLsb'_append_eq_right

/-! ### Two units started in one step -/

/-- An ENC operation always completes, writes `EF` and `ENC_STATUS` only, and takes what it writes from its ports alone,
not from the state (R10, R23, R71). -/
theorem encUnit_writes_own_registers (op : Byte) (p : Payload) :
    ∃ ef encStatus, ∀ s, encUnit op p s = .next { s with ef := ef, encStatus := encStatus } := by
  obtain ⟨i, F, hd, -, hx⟩ | ⟨-, hd, -⟩ := decodeEnc_cases op p
  · exact ⟨some F, .ok, fun s => by rw [encUnit, hd]; exact hx s⟩
  · exact ⟨none, .errUnsupported, fun s => by rw [encUnit, hd]; rfl⟩

/-- A DEC operation always completes, writes DEC's four registers only, and takes what it writes from its ports alone,
not from the state (R10, R23, R91). -/
theorem decUnit_writes_own_registers (B : Frame) :
    ∃ df decExpected decActual decStatus, ∀ s, decUnit B s = .next { s with
      df := df, decExpected := decExpected, decActual := decActual, decStatus := decStatus } := by
  cases hv : valid B
  · exact ⟨none, some (checksum B), some B.checksum, .errChecksum,
      fun s => (decUnit_eq B s).trans (decStep_of_invalid s hv)⟩
  · exact ⟨some B, none, none, .ok, fun s => (decUnit_eq B s).trans (decStep_of_valid s hv)⟩

/-- Settles O41: both strobes are ENC before DEC, and writes to different registers commute. -/
theorem simultaneousStartEqualsEitherOrder : Obligations.SimultaneousStartEqualsEitherOrder := by
  intro op p B s
  obtain ⟨ef, encStatus, henc⟩ := encUnit_writes_own_registers op p
  obtain ⟨df, decExpected, decActual, decStatus, hdec⟩ := decUnit_writes_own_registers B
  have hboth := (runAction_drive_both op p B (henc s)).trans ((decUnit_eq B _).symm.trans (hdec _))
  exact ⟨_, _, _, hboth, henc s, hdec _, hdec s, henc _⟩

end Sys2Proof
end

section
/-! PROOFS. The statements of 30_encoding.md: the opcode map (O5), a table word read as an instruction and back (O44,
O45, O50, O48), and the rows of the opcode table (O46, O47). -/

namespace Sys2Proof

open Machine

/-! ### The opcode bytes ENC accepts -/

theorem encodeFrame_of_not_encodable {op : Byte} (h : op ∉ encodableOpcodes) (p : Payload) :
    encodeFrame op p = .error (.unsupportedOpcode op) := by
  simp only [encodableOpcodes, List.mem_cons, List.not_mem_nil, or_false, not_or] at h
  simp [encodeFrame, h]

/-- ENCODE returns a frame exactly for the opcode bytes of R50. -/
theorem mem_encodableOpcodes_iff (op : Byte) (p : Payload) :
    op ∈ encodableOpcodes ↔ ∃ F, encodeFrame op p = .ok F := by
  constructor
  · intro h
    obtain ⟨i, F, -, hF, -⟩ | ⟨hn, -, -⟩ := decodeEnc_cases op p
    · exact ⟨F, hF⟩
    · exact absurd h hn
  · rintro ⟨F, hF⟩
    by_contra h
    cases (encodeFrame_of_not_encodable h p).symm.trans hF

/-- What the ENC step does when ENCODE returns a frame. -/
theorem encUnit_of_ok {op : Byte} {p : Payload} {F : Frame} (h : encodeFrame op p = .ok F) (s : State) :
    encUnit op p s = .next (s.encDeliver F) := by
  obtain ⟨G, hG, hs⟩ | ⟨hG, -⟩ := encUnit_cases op p s <;> cases hG.symm.trans h
  exact hs

/-- What the ENC step does when ENCODE fails. -/
theorem encUnit_of_error {op : Byte} {p : Payload} {f : BlockFault} (h : encodeFrame op p = .error f) (s : State) :
    encUnit op p s = .next (s.raise f) := by
  obtain ⟨G, hG, -⟩ | ⟨hG, hs⟩ := encUnit_cases op p s <;> cases hG.symm.trans h
  exact hs

/-- Settles O5: the ten bytes of the statement are `encodableOpcodes`. -/
theorem unsupportedOpcodesFailAndTheTenDoNot : Obligations.UnsupportedOpcodesFailAndTheTenDoNot := by
  intro op p s
  refine ⟨mem_encodableOpcodes_iff op p, fun h => ?_⟩
  have hF := encodeFrame_of_not_encodable h p
  exact ⟨hF, encUnit_of_error hF s⟩

/-! ### A frame of a row is rebuilt from its fields -/

theorem hasRowConstants_iff (F : Frame) :
    hasRowConstants F = true ↔ F.marker = markerByte ∧ F.reserved = reservedByte := by
  simp [hasRowConstants]

/-- The bytes of a sentinel row are its response frame. -/
theorem sentinelFrame_eq {F : Frame} {op : Byte} (hc : hasRowConstants F = true) (ho : F.opcode = op) :
    sentinelFrame op F.a F.b F.c F.d F.checksum = F := by
  obtain ⟨hm, hr⟩ := (hasRowConstants_iff F).mp hc
  ext1 <;> simp [sentinelFrame, hm, hr, ho]

/-- A valid frame with the row constants is the request frame of its opcode and payload bytes. -/
theorem requestFrame_eq {F : Frame} {op : Byte} {x : PayloadBytes} (hv : valid F = true)
    (hc : hasRowConstants F = true) (ho : F.opcode = op) (hx : x = ⟨F.a, F.b, F.c, F.d⟩) :
    requestFrame op x = F := by
  obtain ⟨hm, hr⟩ := (hasRowConstants_iff F).mp hc
  have hk : F.checksum = F.marker + F.opcode + F.a + F.b + F.c + F.d + F.reserved :=
    ((valid_iff F).mp hv).trans (checksum_eq_sum F)
  rw [requestFrame_fields, hx, ← ho]
  ext1 <;> simp [hk, hm, hr, markerByte, reservedByte]

/-- A frame of a ZERO row is the request frame of its opcode. -/
theorem requestFrame_zeroLayout_eq {F : Frame} {op : Byte} (hv : valid F = true) (hc : hasRowConstants F = true)
    (ho : F.opcode = op) (hz : zeroPayloadBytes F = true) (p : Payload) :
    requestFrame op (zeroLayout p) = F := by
  obtain ⟨⟨⟨ha, hb⟩, hcc⟩, hd⟩ : ((F.a = 0 ∧ F.b = 0) ∧ F.c = 0) ∧ F.d = 0 := by
    simpa [zeroPayloadBytes] using hz
  exact requestFrame_eq hv hc ho (by simp [zeroLayout, ha, hb, hcc, hd])

/-- A frame of a POS row is the request frame of its opcode and operand. -/
theorem requestFrame_posLayout_eq {F : Frame} {op : Byte} (hv : valid F = true) (hc : hasRowConstants F = true)
    (ho : F.opcode = op) : requestFrame op (posLayout (payloadOperand F)) = F :=
  requestFrame_eq hv hc ho (posLayout_payloadOperand F)

/-- The low byte of a frame's operand is its byte `d`. -/
theorem speedLayout_payloadOperand (F : Frame) : speedLayout (payloadOperand F) = ⟨0, 0, 0, F.d⟩ :=
  congrArg (PayloadBytes.mk 0 0 0) (congrArg PayloadBytes.d (posLayout_payloadOperand F))

/-- A frame of the SPEED row is the request frame of its opcode and operand. -/
theorem requestFrame_speedLayout_eq {F : Frame} {op : Byte} (hv : valid F = true) (hc : hasRowConstants F = true)
    (ho : F.opcode = op) (hz : zeroUpperBytes F = true) :
    requestFrame op (speedLayout (payloadOperand F)) = F := by
  obtain ⟨⟨ha, hb⟩, hcc⟩ : (F.a = 0 ∧ F.b = 0) ∧ F.c = 0 := by simpa [zeroUpperBytes] using hz
  exact requestFrame_eq hv hc ho (by simp [speedLayout_payloadOperand, ha, hb, hcc])

/-- An operand whose upper 24 bits are zero is its low byte after three zero bytes. -/
theorem zero_append_low_byte {p : Payload} (h : p.extractLsb' 8 24 = 0) :
    (0 : Byte) ++ (0 : Byte) ++ (0 : Byte) ++ p.extractLsb' 0 8 = p := by
  calc (0 : Byte) ++ (0 : Byte) ++ (0 : Byte) ++ p.extractLsb' 0 8
      = p.extractLsb' 8 24 ++ p.extractLsb' 0 8 := by rw [h]; rfl
    _ = p := BitVec.extractLsb'_append_extractLsb'_eq_extractLsb' rfl |>.trans BitVec.extractLsb'_eq_self

/-- The operand of a frame whose bytes `a`, `b`, `c` are zero is one the SPEED row carries. -/
theorem hasTableWord_moveWithSpeed_payloadOperand {F : Frame} (hz : zeroUpperBytes F = true) :
    hasTableWord (.moveWithSpeed (payloadOperand F)) = true := by
  obtain ⟨⟨ha, hb⟩, hc⟩ : (F.a = 0 ∧ F.b = 0) ∧ F.c = 0 := by simpa [zeroUpperBytes] using hz
  rw [hasTableWord, beq_iff_eq, payloadOperand, ha, hb, hc]
  exact BitVec.extractLsb'_append_eq_left

/-! ### What the request rows read -/

/-- A ZERO row's instruction is an ENC operation with the request frame of the opcode. -/
theorem zeroRowInstr_some {op : Byte} {i : Instr} (h : zeroRowInstr op = some i) :
    unitOf i = .enc ∧ tableFrame i = requestFrame op (zeroLayout 0) := by
  unfold zeroRowInstr at h
  split_ifs at h with h₁ h₂ h₃ h₄ h₅ h₆ h₇ <;> cases h <;> subst op <;> exact ⟨rfl, rfl⟩

/-- A frame read as a request is an ENC operation, and the frame this operation produces (R55, R56). -/
theorem readRequestFrame_some {F : Frame} {i : Instr} (h : readRequestFrame F = some i) :
    unitOf i = .enc ∧ tableFrame i = F := by
  cases hv : valid F
  · cases (readRequestFrame_of_invalid hv).symm.trans h
  rw [readRequestFrame_of_valid hv] at h
  unfold matchRequestRow at h
  split_ifs at h with hc hM hZ hR hu hz
  all_goals replace hc : hasRowConstants F = true := by simpa using hc
  · cases h
    exact ⟨rfl, requestFrame_posLayout_eq hv hc hM⟩
  · cases h
    exact ⟨rfl, requestFrame_posLayout_eq hv hc hZ⟩
  · cases h
    exact ⟨rfl, requestFrame_speedLayout_eq hv hc hR hu⟩
  · obtain ⟨henc, hF⟩ := zeroRowInstr_some h
    exact ⟨henc, hF.trans (requestFrame_zeroLayout_eq hv hc rfl hz 0)⟩

/-- The frame of an ENC operation that has a table word is read back as the operation. -/
theorem readRequestFrame_tableFrame {i : Instr} (henc : unitOf i = .enc) (h : hasTableWord i = true) :
    readRequestFrame (tableFrame i) = some i := by
  cases i with
  | moveTo p =>
    exact (readRequestFrame_requestFrame _ _).trans (congrArg (some ∘ Instr.moveTo) (payload_of_bytes p))
  | calibrateTo p =>
    exact (readRequestFrame_requestFrame _ _).trans (congrArg (some ∘ Instr.calibrateTo) (payload_of_bytes p))
  | moveWithSpeed p =>
    have hp : p.extractLsb' 8 24 = 0 := by simpa [hasTableWord] using h
    exact (readRequestFrame_requestFrame _ _).trans
      (congrArg (some ∘ Instr.moveWithSpeed) (zero_append_low_byte hp))
  | unrecognizedCommand | badChecksum | decode | checksum => cases henc
  | _ p =>
    obtain rfl : p = 0 := by simpa [hasTableWord] using h
    decide

/-! ### A table word and its instruction -/

theorem decodeTableWord_eq_instrOfWord (w : BitVec 64) : decodeTableWord 64 w.toNat = some (instrOfWord w) := by
  simp [decodeTableWord]

theorem instrOfWord_of_request {w : BitVec 64} {i : Instr} (h : readRequestFrame (frameOfWord w) = some i) :
    instrOfWord w = i := by
  simp [instrOfWord, h]

theorem instrOfWord_of_no_request {w : BitVec 64} (h : readRequestFrame (frameOfWord w) = none) :
    instrOfWord w = decodeDec (frameOfWord w) := by
  simp [instrOfWord, h]

theorem instrOfWord_wordOfFrame_of_no_request {F : Frame} (h : readRequestFrame F = none) :
    instrOfWord (wordOfFrame F) = decodeDec F := by
  simp [instrOfWord, h]

/-- Everything DEC's decoder can read: a sentinel row by its constants and opcode, or the bytes as they are. -/
theorem decodeDec_cases (B : Frame) :
    (hasRowConstants B = true ∧ B.opcode = opUnrecognizedCommand ∧
      decodeDec B = .unrecognizedCommand B.a B.b B.c B.d B.checksum) ∨
    (hasRowConstants B = true ∧ B.opcode = opBadChecksum ∧
      decodeDec B = .badChecksum B.a B.b B.c B.d B.checksum) ∨
    decodeDec B = .decode B := by
  unfold decodeDec
  split_ifs with hc hu hb
  · exact .inl ⟨hc, hu, rfl⟩
  · exact .inr (.inl ⟨hc, hb, rfl⟩)
  · exact .inr (.inr rfl)
  · exact .inr (.inr rfl)

theorem unitOf_decodeDec (B : Frame) : unitOf (decodeDec B) = .dec := by
  obtain ⟨-, -, h⟩ | ⟨-, -, h⟩ | h := decodeDec_cases B <;> rw [h] <;> rfl

/-- An instruction that has a table word is read back from it: an ENC operation by its row, a sentinel because its
opcode is outside the ten, DECODE because its bytes match no other row. -/
theorem instrOfWord_wordOfFrame_tableFrame {i : Instr} (h : hasTableWord i = true) :
    instrOfWord (wordOfFrame (tableFrame i)) = i := by
  cases i with
  | unrecognizedCommand a b c d k =>
    exact instrOfWord_wordOfFrame_of_no_request
      (readRequestFrame_of_not_encodable (show opUnrecognizedCommand ∉ encodableOpcodes by decide))
  | badChecksum a b c d k =>
    exact instrOfWord_wordOfFrame_of_no_request
      (readRequestFrame_of_not_encodable (show opBadChecksum ∉ encodableOpcodes by decide))
  | decode B =>
    obtain ⟨hs, hr⟩ : matchesSentinelRow B = false ∧ readRequestFrame B = none := by simpa [hasTableWord] using h
    exact (instrOfWord_wordOfFrame_of_no_request hr).trans (decodeDec_of_no_sentinel hs)
  | checksum B => cases h
  | _ p => exact instrOfWord_of_request (by simpa using readRequestFrame_tableFrame rfl h)

/-- Settles O44, by `instrOfWord_wordOfFrame_tableFrame`. -/
theorem tableWordRoundTrips : Obligations.TableWordRoundTrips := by
  intro i h
  rw [decodeTableWord_eq_instrOfWord, instrOfWord_wordOfFrame_tableFrame h]

/-! ### The frames ENCODE returns -/

/-- An ENC operation delivers the frame of its table word. -/
theorem exec_of_enc {i : Instr} (h : unitOf i = .enc) (s : State) : exec i s = .next (s.encDeliver (tableFrame i)) := by
  cases i with
  | unrecognizedCommand | badChecksum | decode | checksum => cases h
  | _ => rfl

/-- Every frame ENCODE returns is the frame of an ENC operation that has a table word: the payload without the bits the
row does not carry (R43 to R45). -/
theorem encodeFrame_ok_tableFrame {op : Byte} {p : Payload} {F : Frame} (h : encodeFrame op p = .ok F) :
    ∃ i, unitOf i = .enc ∧ hasTableWord i = true ∧ tableFrame i = F := by
  have hop := (mem_encodableOpcodes_iff op p).mpr ⟨F, h⟩
  simp only [encodableOpcodes, List.mem_cons, List.not_mem_nil, or_false] at hop
  rcases hop with rfl | rfl | rfl | rfl | rfl | rfl | rfl | rfl | rfl | rfl <;> cases h
  · exact ⟨.park 0, rfl, rfl, rfl⟩
  · exact ⟨.stop 0, rfl, rfl, rfl⟩
  · exact ⟨.isMoving 0, rfl, rfl, rfl⟩
  · exact ⟨.moveTo p, rfl, rfl, rfl⟩
  · exact ⟨.readPosition 0, rfl, rfl, rfl⟩
  · have hlow : ((0 : BitVec 24) ++ p.extractLsb' 0 8).extractLsb' 0 8 = p.extractLsb' 0 8 :=
      BitVec.extractLsb'_append_eq_right
    have hhigh : ((0 : BitVec 24) ++ p.extractLsb' 0 8).extractLsb' 8 24 = 0 := BitVec.extractLsb'_append_eq_left
    refine ⟨.moveWithSpeed ((0 : BitVec 24) ++ p.extractLsb' 0 8), rfl, beq_iff_eq.mpr hhigh, ?_⟩
    rw [tableFrame, speedLayout, hlow, speedLayout]
  · exact ⟨.readTemperature 0, rfl, rfl, rfl⟩
  · exact ⟨.readVersion 0, rfl, rfl, rfl⟩
  · exact ⟨.isCalibrated 0, rfl, rfl, rfl⟩
  · exact ⟨.calibrateTo p, rfl, rfl, rfl⟩

/-- Settles O45: both the ENC step and the operation read back deliver the frame. -/
theorem requestFramesReadBackAsTheirOperation : Obligations.RequestFramesReadBackAsTheirOperation := by
  refine ⟨fun op p F hF => ?_, fun F i h => (readRequestFrame_some h).2⟩
  obtain ⟨i, henc, hw, rfl⟩ := encodeFrame_ok_tableFrame hF
  exact ⟨i, readRequestFrame_tableFrame henc hw, fun s => (exec_of_enc henc s).trans (encUnit_of_ok hF s).symm⟩

/-! ### The rows of the opcode table -/

/-- One row of the table by its parts: mnemonic, opcode byte, and which bits of the payload bytes its mask covers. -/
structure RowShape where
  mnemonic : String
  opcode   : Byte
  covered  : PayloadBytes

/-- The row of a shape: match and mask cover marker, opcode and reserved byte, the covered payload bits are zero, and
byte 7 is left out (R55). -/
def RowShape.toRow (r : RowShape) : TableRow where
  mnemonic := r.mnemonic
  pattern  := wordOfFrame ⟨markerByte, r.opcode, 0, 0, 0, 0, reservedByte, 0⟩
  mask     := wordOfFrame ⟨0xFF, 0xFF, r.covered.a, r.covered.b, r.covered.c, r.covered.d, 0xFF, 0⟩

/-- A row whose payload bytes are free: POS (R43) and the two sentinels (R49). -/
def freeRow (mnemonic : String) (op : Byte) : RowShape := ⟨mnemonic, op, ⟨0, 0, 0, 0⟩⟩
/-- A ZERO row (R44). -/
def zeroRow (mnemonic : String) (op : Byte) : RowShape := ⟨mnemonic, op, ⟨0xFF, 0xFF, 0xFF, 0xFF⟩⟩
/-- The SPEED row (R45). -/
def speedRow (mnemonic : String) (op : Byte) : RowShape := ⟨mnemonic, op, ⟨0xFF, 0xFF, 0xFF, 0⟩⟩

/-- The shapes of the twelve rows, in the table's order. -/
def rowShapes : List RowShape :=
  [freeRow "M" opMoveTo, freeRow "Z" opCalibrateTo, zeroRow "H" opStop, zeroRow "P" opReadPosition,
   zeroRow "I" opIsMoving, zeroRow "T" opReadTemperature, zeroRow "W" opIsCalibrated, speedRow "R" opMoveWithSpeed,
   zeroRow "G" opPark, zeroRow "V" opReadVersion, freeRow "!" opUnrecognizedCommand, freeRow "?" opBadChecksum]

theorem opcodeRows_eq : opcodeRows = rowShapes.map RowShape.toRow := by decide

/-- The frame agrees with the row under its mask, said byte by byte. -/
def RowShape.Agrees (r : RowShape) (F : Frame) : Prop :=
  hasRowConstants F = true ∧ F.opcode = r.opcode ∧
    F.a &&& r.covered.a = 0 ∧ F.b &&& r.covered.b = 0 ∧ F.c &&& r.covered.c = 0 ∧ F.d &&& r.covered.d = 0

/-- A mask byte of ones keeps the byte. -/
theorem and_255 (x : Byte) : x &&& 255#8 = x := BitVec.and_allOnes

/-- Masking a word masks its bytes. -/
theorem frameOfWord_and (w v : BitVec 64) :
    frameOfWord (w &&& v) = ⟨(frameOfWord w).marker &&& (frameOfWord v).marker,
      (frameOfWord w).opcode &&& (frameOfWord v).opcode, (frameOfWord w).a &&& (frameOfWord v).a,
      (frameOfWord w).b &&& (frameOfWord v).b, (frameOfWord w).c &&& (frameOfWord v).c,
      (frameOfWord w).d &&& (frameOfWord v).d, (frameOfWord w).reserved &&& (frameOfWord v).reserved,
      (frameOfWord w).checksum &&& (frameOfWord v).checksum⟩ := by
  simp [frameOfWord, BitVec.extractLsb'_and]

/-- Words are equal exactly if their frames are. -/
theorem frameOfWord_inj {w v : BitVec 64} : frameOfWord w = frameOfWord v ↔ w = v :=
  ⟨fun h => by simpa using congrArg wordOfFrame h, congrArg frameOfWord⟩

/-- Agreement of a word under match and mask is agreement of its bytes. -/
theorem RowShape.toRow_agrees_iff (r : RowShape) (w : BitVec 64) :
    w &&& r.toRow.mask = r.toRow.pattern ↔ r.Agrees (frameOfWord w) := by
  rw [← frameOfWord_inj, frameOfWord_and]
  simp only [toRow, Agrees, hasRowConstants_iff, frameOfWord_wordOfFrame, Frame.mk.injEq, BitVec.ofNat_eq_ofNat,
    and_255, BitVec.and_zero, and_true]
  tauto

theorem freeRow_agrees_iff (mnemonic : String) (op : Byte) (F : Frame) :
    (freeRow mnemonic op).Agrees F ↔ hasRowConstants F = true ∧ F.opcode = op := by
  simp [RowShape.Agrees, freeRow]

theorem zeroRow_agrees_iff (mnemonic : String) (op : Byte) (F : Frame) :
    (zeroRow mnemonic op).Agrees F ↔ hasRowConstants F = true ∧ F.opcode = op ∧ zeroPayloadBytes F = true := by
  simp [RowShape.Agrees, zeroRow, zeroPayloadBytes, and_255, and_assoc]

theorem speedRow_agrees_iff (mnemonic : String) (op : Byte) (F : Frame) :
    (speedRow mnemonic op).Agrees F ↔ hasRowConstants F = true ∧ F.opcode = op ∧ zeroUpperBytes F = true := by
  simp [RowShape.Agrees, speedRow, zeroUpperBytes, and_255, and_assoc]

/-- Settles O47: the rows have different opcode bytes, and every mask covers the opcode byte. -/
theorem tableRowsArePairwiseDisjoint : Obligations.TableRowsArePairwiseDisjoint := by
  have hops : rowShapes.Pairwise fun r r' => r.opcode ≠ r'.opcode := by decide
  unfold Obligations.TableRowsArePairwiseDisjoint
  rw [opcodeRows_eq, List.pairwise_map]
  refine hops.imp fun {r r'} hne w => ?_
  rw [r.toRow_agrees_iff, r'.toRow_agrees_iff]
  rintro ⟨⟨-, ho, -⟩, ⟨-, ho', -⟩⟩
  exact hne (ho.symm.trans ho')

/-- A valid frame that agrees with a row is the table word of an instruction of that row. -/
theorem exists_instr_of_row {r : RowShape} {F : Frame} (hr : r ∈ rowShapes) (h : r.Agrees F) (hv : valid F = true) :
    ∃ i, hasTableWord i = true ∧ tableFrame i = F ∧ mnemonicOf i = r.mnemonic := by
  have free {m op} (h : (freeRow m op).Agrees F) := (freeRow_agrees_iff m op F).mp h
  have ofPos {m op} (h : (freeRow m op).Agrees F) : requestFrame op (posLayout (payloadOperand F)) = F :=
    requestFrame_posLayout_eq hv (free h).1 (free h).2
  have ofZero {m op} (h : (zeroRow m op).Agrees F) : requestFrame op (zeroLayout 0) = F := by
    obtain ⟨hc, ho, hz⟩ := (zeroRow_agrees_iff m op F).mp h
    exact requestFrame_zeroLayout_eq hv hc ho hz 0
  have ofSentinel {m op} (h : (freeRow m op).Agrees F) : sentinelFrame op F.a F.b F.c F.d F.checksum = F :=
    sentinelFrame_eq (free h).1 (free h).2
  simp only [rowShapes, List.mem_cons, List.not_mem_nil, or_false] at hr
  rcases hr with rfl | rfl | rfl | rfl | rfl | rfl | rfl | rfl | rfl | rfl | rfl | rfl
  · exact ⟨.moveTo _, rfl, ofPos h, rfl⟩
  · exact ⟨.calibrateTo _, rfl, ofPos h, rfl⟩
  · exact ⟨.stop 0, rfl, ofZero h, rfl⟩
  · exact ⟨.readPosition 0, rfl, ofZero h, rfl⟩
  · exact ⟨.isMoving 0, rfl, ofZero h, rfl⟩
  · exact ⟨.readTemperature 0, rfl, ofZero h, rfl⟩
  · exact ⟨.isCalibrated 0, rfl, ofZero h, rfl⟩
  · obtain ⟨hc, ho, hz⟩ := (speedRow_agrees_iff _ _ F).mp h
    exact ⟨.moveWithSpeed _, hasTableWord_moveWithSpeed_payloadOperand hz,
      requestFrame_speedLayout_eq hv hc ho hz, rfl⟩
  · exact ⟨.park 0, rfl, ofZero h, rfl⟩
  · exact ⟨.readVersion 0, rfl, ofZero h, rfl⟩
  · exact ⟨.unrecognizedCommand _ _ _ _ _, rfl, ofSentinel h, rfl⟩
  · exact ⟨.badChecksum _ _ _ _ _, rfl, ofSentinel h, rfl⟩

/-- The frame of an ENC operation agrees with its row. -/
theorem exists_row_of_enc {i : Instr} (henc : unitOf i = .enc) : ∃ r ∈ rowShapes, r.Agrees (tableFrame i) := by
  have free {m op} (x) : (freeRow m op).Agrees (requestFrame op x) := (freeRow_agrees_iff ..).mpr ⟨rfl, rfl⟩
  have zero {m op} (p) : (zeroRow m op).Agrees (requestFrame op (zeroLayout p)) :=
    (zeroRow_agrees_iff ..).mpr ⟨rfl, rfl, rfl⟩
  cases i with
  | moveTo p => exact ⟨freeRow "M" opMoveTo, by simp [rowShapes], free _⟩
  | calibrateTo p => exact ⟨freeRow "Z" opCalibrateTo, by simp [rowShapes], free _⟩
  | stop p => exact ⟨zeroRow "H" opStop, by simp [rowShapes], zero p⟩
  | readPosition p => exact ⟨zeroRow "P" opReadPosition, by simp [rowShapes], zero p⟩
  | isMoving p => exact ⟨zeroRow "I" opIsMoving, by simp [rowShapes], zero p⟩
  | readTemperature p => exact ⟨zeroRow "T" opReadTemperature, by simp [rowShapes], zero p⟩
  | isCalibrated p => exact ⟨zeroRow "W" opIsCalibrated, by simp [rowShapes], zero p⟩
  | moveWithSpeed p =>
    exact ⟨speedRow "R" opMoveWithSpeed, by simp [rowShapes], (speedRow_agrees_iff ..).mpr ⟨rfl, rfl, rfl⟩⟩
  | park p => exact ⟨zeroRow "G" opPark, by simp [rowShapes], zero p⟩
  | readVersion p => exact ⟨zeroRow "V" opReadVersion, by simp [rowShapes], zero p⟩
  | unrecognizedCommand | badChecksum | decode | checksum => cases henc

/-- A word that agrees with no row is read as DECODE of its bytes. -/
theorem instrOfWord_of_no_row {w : BitVec 64} (h : ∀ r ∈ rowShapes, ¬ r.Agrees (frameOfWord w)) :
    instrOfWord w = .decode (frameOfWord w) := by
  cases hq : readRequestFrame (frameOfWord w) with
  | some i =>
    obtain ⟨henc, hF⟩ := readRequestFrame_some hq
    obtain ⟨r, hr, ha⟩ := exists_row_of_enc henc
    exact absurd (hF ▸ ha) (h r hr)
  | none =>
    rw [instrOfWord_of_no_request hq]
    obtain ⟨hc, ho, -⟩ | ⟨hc, ho, -⟩ | hd := decodeDec_cases (frameOfWord w)
    · exact absurd ((freeRow_agrees_iff ..).mpr ⟨hc, ho⟩)
        (h (freeRow "!" opUnrecognizedCommand) (by simp [rowShapes]))
    · exact absurd ((freeRow_agrees_iff ..).mpr ⟨hc, ho⟩)
        (h (freeRow "?" opBadChecksum) (by simp [rowShapes]))
    · exact hd

theorem instrOfWord_of_invalid {w : BitVec 64} (h : valid (frameOfWord w) = false) :
    instrOfWord w = decodeDec (frameOfWord w) :=
  instrOfWord_of_no_request (readRequestFrame_of_invalid h)

/-- Settles O46: the instruction of the row has the word as its table word, and a word is read back as its
instruction (O44); an invalid word is left to DEC's decoder. -/
theorem tableRowsSelectTheirInstruction : Obligations.TableRowsSelectTheirInstruction := by
  unfold Obligations.TableRowsSelectTheirInstruction
  intro w
  simp only [opcodeRows_eq, List.forall_mem_map, RowShape.toRow_agrees_iff, decodeTableWord_eq_instrOfWord,
    Option.map_some, Option.some.injEq, ne_eq]
  refine ⟨fun r hr ha hv => ?_, instrOfWord_of_no_row, fun hv hs => ?_, fun hv => ?_⟩
  · obtain ⟨i, hw, hF, hm⟩ := exists_instr_of_row hr ha hv
    have hi : instrOfWord w = i := by simpa [hF] using instrOfWord_wordOfFrame_tableFrame hw
    rw [hi, hm, RowShape.toRow]
  · rw [instrOfWord_of_invalid hv, decodeDec_of_no_sentinel hs]
  · refine ⟨_, instrOfWord_of_invalid hv, unitOf_decodeDec _, fun s => ?_⟩
    rw [exec_decodeDec, decStep_of_invalid s hv]
    rfl

/-! ### A table word placed and run -/

/-- Only DECODE has a check, and DEC's decoder meets it. -/
theorem instrOfWord_wellFormed (w : BitVec 64) : (instrOfWord w).wellFormed = true := by
  cases h : readRequestFrame (frameOfWord w) with
  | none => rw [instrOfWord_of_no_request h, decodeDec_wellFormed]
  | some i =>
    rw [instrOfWord_of_request h]
    obtain ⟨henc, -⟩ := readRequestFrame_some h
    cases i with
    | decode B => cases henc
    | _ => rfl

/-- The instruction of any table word is well-formed, whatever the length given. -/
theorem decodeTableWord_wellFormed {nbits w : Nat} {i : Instr} (h : decodeTableWord nbits w = some i) :
    i.wellFormed = true := by
  unfold decodeTableWord at h
  split_ifs at h
  cases h
  exact instrOfWord_wellFormed _

/-- Placing a word puts the encoding of its instruction first in the host's list (log 1). -/
theorem withFetchWord_of_some {nbits w : Nat} {i : Instr} (h : decodeTableWord nbits w = some i) (s : State) :
    s.withFetchWord nbits w = s.withPending (encode i :: s.pending) := by
  simp [State.withFetchWord, placeTableWord, h]

/-- Settles O50: the step takes the placed action off the list again and performs it. -/
theorem stepRunsThePlacedTableWord : Obligations.StepRunsThePlacedTableWord := by
  intro nbits w i s h
  rw [withFetchWord_of_some h, step_cons (withPending_pending s _), withPending_withPending, withPending_self,
    runAction_encode (decodeTableWord_wellFormed h)]

/-- Settles O48, by running the decoder on the seven words. -/
theorem sampleWordsDecode : Obligations.SampleWordsDecode := by
  unfold Obligations.SampleWordsDecode
  decide

end Sys2Proof
end

section
/-! PROOFS. The statements of 40_checksum.md: the sum (O9), its byte-serial form (O11) and its row (O16), validity (O10,
O15), what it detects (O12) and what it does not (O14). -/

namespace Sys2Proof

open Machine

/-! ### The checksum as a number and as a sum over the covered bytes -/

/-- The checksum is the integer sum of bytes 0..6 modulo 256 (R60). -/
theorem checksum_toNat (F : Frame) :
    (checksum F).toNat = (F.marker.toNat + F.opcode.toNat + F.a.toNat + F.b.toNat + F.c.toNat + F.d.toNat
      + F.reserved.toNat) % 256 :=
  BitVec.toNat_ofNat _ _

/-- Settles O9: the modulus is the definition's width, and each of the seven bytes is at most 255. -/
theorem checksumIsTheSumModulo256 : Obligations.ChecksumIsTheSumModulo256 := by
  intro F
  refine ⟨checksum_toNat F, ?_, checksum_ignores_byte7 F⟩
  have le255 (b : Byte) : b.toNat ≤ 255 := Nat.le_of_lt_succ b.isLt
  linarith [le255 F.marker, le255 F.opcode, le255 F.a, le255 F.b, le255 F.c, le255 F.d, le255 F.reserved]

/-- Settles O16, by the value of the byte handed to the host. -/
theorem checksumRowHandsTheSumToTheHost : Obligations.ChecksumRowHandsTheSumToTheHost := by
  intro F s
  rw [← checksum_toNat]
  rfl

/-- Adding the covered bytes in index order, each time discarding the carry, gives the checksum (R62). -/
theorem serialChecksum_eq_checksum (F : Frame) : serialChecksum F = checksum F := by
  simp [serialChecksum, coveredBytes, checksum_eq_sum]

/-- Settles O11: in index order it is `serialChecksum_eq_checksum`, and addition commutes. -/
theorem serialAdditionGivesTheChecksum : Obligations.SerialAdditionGivesTheChecksum := by
  intro F bytes hperm
  calc bytes.foldl (· + ·) 0
      = serialChecksum F := hperm.foldl_eq 0
    _ = checksum F := serialChecksum_eq_checksum F

/-- The checksum reads the covered bytes through their integer sum only. -/
theorem checksum_toNat_eq_sum_coveredBytes (F : Frame) :
    (checksum F).toNat = ((coveredBytes F).map BitVec.toNat).sum % 256 := by
  simp [checksum_toNat, coveredBytes, add_assoc]

/-- Setting byte 7 does not touch the bytes the checksum covers (R60). -/
theorem checksum_setByte_7 (F : Frame) (v : Byte) : checksum (setByte F 7 v) = checksum F := rfl

/-- Setting a covered byte moves the checksum by the difference of the new and the old byte. -/
theorem checksum_setByte_covered (F : Frame) {i : Fin 8} (hi : i ≠ 7) (v : Byte) :
    checksum (setByte F i v) = checksum F + (v - byteAt F i) := by
  match i with
  | 7 => exact absurd rfl hi
  | 0 | 1 | 2 | 3 | 4 | 5 | 6 =>
    simp only [checksum_eq_sum, setByte, byteAt]
    ring

/-! ### Validity -/

/-- Validity of bytes addressed by index. -/
theorem valid_iff_byteAt_7 (F : Frame) : valid F = true ↔ byteAt F 7 = checksum F := valid_iff F

/-- DECODE completes, and `DF` afterwards holds the frame as it came if it is valid, otherwise nothing (R61, R90). -/
theorem decode_delivers_the_frame_iff_valid (F : Frame) (s : State) :
    ∃ t, exec (.decode F) s = .next t ∧ t.df = if valid F then some F else none := by
  obtain ⟨hv, ht⟩ | ⟨hv, ht⟩ := decStep_cases F s <;> exact ⟨_, ht, by simp [hv]⟩

/-- Settles O10: an equation of bytes is the equation of their numbers. -/
theorem validityIsTheChecksumEquationAlone : Obligations.ValidityIsTheChecksumEquationAlone := by
  intro F s
  refine ⟨?_, decode_delivers_the_frame_iff_valid F s⟩
  rw [valid_iff, ← BitVec.toNat_inj, checksum_toNat]

/-- Settles O15: the one byte 7 is the checksum, which does not depend on byte 7. -/
theorem exactlyOneByte7MakesAFrameValid : Obligations.ExactlyOneByte7MakesAFrameValid := by
  intro F
  simp only [valid_iff, checksum_ignores_byte7]
  exact existsUnique_eq

/-! ### What the checksum detects -/

/-- A valid frame with one byte altered is not valid: either byte 7 changes and the checksum does not, or the checksum
changes and byte 7 does not (R64). -/
theorem setByte_invalid {F : Frame} {i : Fin 8} {v : Byte} (hF : valid F = true) (hv : v ≠ byteAt F i) :
    valid (setByte F i v) = false := by
  rw [valid_iff_byteAt_7] at hF
  rw [Bool.eq_false_iff, ne_eq, valid_iff_byteAt_7]
  by_cases hi : i = 7
  · subst hi
    rwa [byteAt_setByte_same, checksum_setByte_7, ← hF]
  · rw [byteAt_setByte_other F v (Ne.symm hi), checksum_setByte_covered F hi, hF, eq_comm, add_eq_left, sub_eq_zero]
    exact hv

/-- Settles O12, by what DECODE does with bytes that are not valid. -/
theorem oneAlteredByteIsAlwaysDetected : Obligations.OneAlteredByteIsAlwaysDetected :=
  fun _ _ _ s hF hv => decStep_of_invalid s (setByte_invalid hF hv)

/-! ### What the checksum does not detect -/

/-- Validity depends on byte 7 and the checksum alone. -/
theorem valid_of_same_checksum {F G : Frame} (hF : valid F = true) (h7 : G.checksum = F.checksum)
    (hsum : checksum G = checksum F) : valid G = true := by
  rw [valid_iff] at hF ⊢
  rw [h7, hF, hsum]

/-- Covered bytes with the same integer sum modulo 256 pass with the same byte 7 (R65 (b)). -/
theorem valid_of_same_sum_mod_256 {F G : Frame} (hF : valid F = true) (h7 : G.checksum = F.checksum)
    (hsum : ((coveredBytes G).map BitVec.toNat).sum % 256 = ((coveredBytes F).map BitVec.toNat).sum % 256) :
    valid G = true := by
  refine valid_of_same_checksum hF h7 (BitVec.eq_of_toNat_eq ?_)
  rw [checksum_toNat_eq_sum_coveredBytes, hsum, ← checksum_toNat_eq_sum_coveredBytes]

/-- A change of a covered byte passes if byte 7 changes by the same amount (R65 (c)). -/
theorem valid_of_byte7_compensated {F : Frame} {i : Fin 8} (hF : valid F = true) (hi : i ≠ 7) (δ : Byte) :
    valid (setByte (setByte F i (byteAt F i + δ)) 7 (byteAt F 7 + δ)) = true := by
  rw [valid_iff_byteAt_7] at hF ⊢
  rw [byteAt_setByte_same, checksum_setByte_7, checksum_setByte_covered F hi, add_sub_cancel_left, hF]

/-- Settles O14: (a) is a case of (b), since a permutation keeps the sum; the pairs of (b) cancel in the checksum. -/
theorem checksumMissesPermutationsAndCompensatedChanges :
    Obligations.ChecksumMissesPermutationsAndCompensatedChanges := by
  refine ⟨fun F G hF hperm h7 => ?_, fun F G hF h7 => valid_of_same_sum_mod_256 hF h7, fun F δ hF =>
    ⟨valid_of_same_checksum hF rfl ?_, valid_of_same_checksum hF rfl ?_⟩,
    fun F i δ hF hi => valid_of_byte7_compensated hF hi δ, by decide⟩
  · exact valid_of_same_sum_mod_256 hF h7 (by rw [(hperm.map BitVec.toNat).sum_eq])
  all_goals
    simp only [checksum_eq_sum]
    ring

end Sys2Proof
end

section
/-! PROOFS. The statements of 41_encode.md: the frames ENCODE builds (O1 to O4, O8), the ENC step at the ports (O6), and a
frame of ENC presented to DEC again (O7, O32, O33). -/

namespace Sys2Proof

open Machine

/-! ### What a response delivers, opcode by opcode -/

theorem delivered_moveTo {F : Frame} (h : F.opcode = opMoveTo) : delivered F = .echoedTarget (payloadI32 F) := by
  rw [delivered, h]; rfl

theorem delivered_calibrateTo {F : Frame} (h : F.opcode = opCalibrateTo) :
    delivered F = .echoedTarget (payloadI32 F) := by
  rw [delivered, h]; rfl

theorem delivered_stop {F : Frame} (h : F.opcode = opStop) : delivered F = .opcodeOnly := by
  rw [delivered, h]; rfl

theorem delivered_readPosition {F : Frame} (h : F.opcode = opReadPosition) :
    delivered F = .position (payloadI32 F) := by
  rw [delivered, h]; rfl

theorem delivered_isMoving {F : Frame} (h : F.opcode = opIsMoving) : delivered F = .moving (dBit0 F) := by
  rw [delivered, h]; rfl

theorem delivered_readTemperature {F : Frame} (h : F.opcode = opReadTemperature) :
    delivered F = .environment (hi16S F) (lo16S F) := by
  rw [delivered, h]; rfl

theorem delivered_isCalibrated {F : Frame} (h : F.opcode = opIsCalibrated) : delivered F = .absolute (dBit0 F) := by
  rw [delivered, h]; rfl

theorem delivered_moveWithSpeed {F : Frame} (h : F.opcode = opMoveWithSpeed) :
    delivered F = .echoedSpeed F.d (dDir F) (dSpeed F) := by
  rw [delivered, h]; rfl

theorem delivered_park {F : Frame} (h : F.opcode = opPark) : delivered F = .opcodeOnly := by
  rw [delivered, h]; rfl

theorem delivered_readVersion {F : Frame} (h : F.opcode = opReadVersion) :
    delivered F = .version (verMajor F) (verMinor F) := by
  rw [delivered, h]; rfl

/-! ### The frames ENCODE returns -/

/-- A frame ENCODE returns is the request frame of its opcode, one of the ten, with some layout of the payload (R70). -/
theorem encodeFrame_ok_requestFrame {op : Byte} {p : Payload} {F : Frame} (h : encodeFrame op p = .ok F) :
    op ∈ encodableOpcodes ∧ ∃ x, F = requestFrame op x := by
  refine ⟨(mem_encodableOpcodes_iff op p).mpr ⟨F, h⟩, ?_⟩
  unfold encodeFrame at h
  split_ifs at h <;> cases h
  · exact ⟨posLayout p, rfl⟩
  · exact ⟨zeroLayout p, rfl⟩
  · exact ⟨speedLayout p, rfl⟩

/-- ENCODE has no failure beside UnsupportedOpcode of its opcode (R82, R83). -/
theorem encodeFrame_error {op : Byte} {p : Payload} {f : BlockFault} (h : encodeFrame op p = .error f) :
    f = .unsupportedOpcode op := by
  obtain ⟨-, F, -, hF, -⟩ | ⟨-, -, hf⟩ := decodeEnc_cases op p
  · cases hF.symm.trans h
  · cases hf.symm.trans h
    rfl

/-- Settles O7: a request frame carries its constants and its checksum, and neither sentinel is among the ten. -/
theorem encodeRoundTripsThroughDecode : Obligations.EncodeRoundTripsThroughDecode := by
  intro op p F h
  obtain ⟨hop, x, rfl⟩ := encodeFrame_ok_requestFrame h
  have hv := requestFrame_valid op x
  refine ⟨rfl, rfl, rfl, hv, decodeFrame_of_valid hv, ?_, ?_⟩
  all_goals
    rintro rfl
    exact absurd hop (by decide)

/-! ### Which payload bits a request frame carries -/

/-- A request frame determines its payload bytes. -/
theorem requestFrame_inj {op : Byte} {x y : PayloadBytes} : requestFrame op x = requestFrame op y ↔ x = y :=
  ⟨congrArg fun F : Frame => PayloadBytes.mk F.a F.b F.c F.d, congrArg (requestFrame op)⟩

/-- POS carries the whole payload (R43). -/
theorem posLayout_inj {x y : Payload} : posLayout x = posLayout y ↔ x = y := by
  refine ⟨fun h => ?_, congrArg posLayout⟩
  calc x = (posLayout x).a ++ (posLayout x).b ++ (posLayout x).c ++ (posLayout x).d := (payload_of_bytes x).symm
    _ = (posLayout y).a ++ (posLayout y).b ++ (posLayout y).c ++ (posLayout y).d := by rw [h]
    _ = y := payload_of_bytes y

/-- SPEED carries the low byte of the payload and no other bit (R45). -/
theorem speedLayout_inj {x y : Payload} :
    speedLayout x = speedLayout y ↔ x.extractLsb' 0 8 = y.extractLsb' 0 8 := by
  simp [speedLayout]

/-- ENCODE of an opcode whose layout is `layout` agrees on two payloads exactly if the layouts do. -/
theorem encodeFrame_eq_iff {op : Byte} {layout : Payload → PayloadBytes}
    (h : ∀ p, encodeFrame op p = .ok (requestFrame op (layout p))) (x y : Payload) :
    encodeFrame op x = encodeFrame op y ↔ layout x = layout y := by
  rw [h, h, Except.ok.injEq, requestFrame_inj]

/-- Settles O8: two frames of one opcode are equal exactly if their layouts are. -/
theorem encodeDropsExactlyTheUncarriedBits : Obligations.EncodeDropsExactlyTheUncarriedBits := by
  intro x y
  refine ⟨?_, ?_, ?_, fun op hop => ?_, fun op f => encodeFrame_error⟩
  · exact (encodeFrame_eq_iff (fun _ => rfl) x y).trans posLayout_inj
  · exact (encodeFrame_eq_iff (fun _ => rfl) x y).trans posLayout_inj
  · exact (encodeFrame_eq_iff (fun _ => rfl) x y).trans speedLayout_inj
  · fin_cases hop <;> rfl

/-! ### The ENC step at the ports -/

/-- Settles O6: ENC alone is the ENC step of R71; with DEC alone, or neither unit, ENC's registers are not written. -/
theorem encStepWritesWhatEncodeReturns : Obligations.EncStepWritesWhatEncodeReturns := by
  constructor
  · intro op p B s
    rw [runAction_drive_enc]
    exact encUnit_cases op p s
  · rintro ⟨encStart, op, p, decStart, B⟩ s rfl
    cases decStart with
    | false => exact ⟨s, runAction_drive_none op p B s, rfl, rfl⟩
    | true =>
      obtain ⟨df, decExpected, decActual, decStatus, hdec⟩ := decUnit_writes_own_registers B
      exact ⟨_, (runAction_drive_dec op p B s).trans ((decUnit_eq B s).symm.trans (hdec s)), rfl, rfl⟩

/-! ### The ten opcodes: their frames and their responses -/

/-- An ENC operation delivers the request frame of its opcode and layout, written out byte by byte (R40 to R42, R71). -/
theorem encStep_fields (op : Byte) (x : PayloadBytes) (s : State) :
    encStep op x s = .next { s with
      ef := some ⟨0x4D, op, x.a, x.b, x.c, x.d, 0, 0x4D + op + x.a + x.b + x.c + x.d⟩, encStatus := .ok } := by
  rw [encStep, requestFrame_fields]
  rfl

/-- Settles O1: the POS frame, with marker and opcode summed to `0x9A`. -/
theorem moveToBuildsItsPosFrame : Obligations.MoveToBuildsItsPosFrame :=
  ⟨fun p s => encStep_fields opMoveTo (posLayout p) s, fun _ => delivered_moveTo⟩

/-- Settles O2: the POS frame, with marker and opcode summed to `0xA7`. -/
theorem calibrateToBuildsItsPosFrame : Obligations.CalibrateToBuildsItsPosFrame :=
  ⟨fun p s => encStep_fields opCalibrateTo (posLayout p) s, fun _ => delivered_calibrateTo⟩

/-- Settles O3: the ZERO layout ignores the payload, and the checksum is of constants. -/
theorem zeroPayloadOpcodesBuildTheirOneFrame : Obligations.ZeroPayloadOpcodesBuildTheirOneFrame := by
  refine ⟨fun p s => ?_, fun F => ⟨delivered_stop, delivered_readPosition, delivered_isMoving,
    delivered_readTemperature, delivered_isCalibrated, delivered_park, delivered_readVersion⟩⟩
  have frame (op : Byte) := encStep_fields op (zeroLayout p) s
  exact ⟨frame opStop, frame opReadPosition, frame opIsMoving, frame opReadTemperature, frame opIsCalibrated,
    frame opPark, frame opReadVersion⟩

/-- Settles O4: the SPEED frame, whose first three payload bytes add nothing to the checksum. -/
theorem moveWithSpeedBuildsItsSpeedFrame : Obligations.MoveWithSpeedBuildsItsSpeedFrame :=
  ⟨fun p s => encStep_fields opMoveWithSpeed (speedLayout p) s, fun _ => delivered_moveWithSpeed⟩

/-! ### A frame of ENC echoed to DEC -/

theorem tableFrame_valid_of_enc {i : Instr} (h : unitOf i = .enc) : valid (tableFrame i) = true := by
  cases i with
  | unrecognizedCommand | badChecksum | decode | checksum => cases h
  | _ => exact requestFrame_valid _ _

/-- What an ENC operation leaves in `EF`, presented to DEC, is accepted and delivered. -/
theorem echo_of_enc_is_delivered {i : Instr} {r : Delivery} (h : unitOf i = .enc) (hr : delivered (tableFrame i) = r)
    (s : State) :
    ∃ u F v, exec i s = .next u ∧ u.ef = some F ∧ exec (.decode F) u = .next v ∧ v.df.map delivered = some r :=
  ⟨_, _, _, exec_of_enc h s, encDeliver_ef _ _, decStep_of_valid _ (tableFrame_valid_of_enc h), congrArg some hr⟩

/-- POS and PAYLOAD32 undo each other (R43, R94). -/
theorem payload32_requestFrame_posLayout (op : Byte) (p : Payload) :
    payload32 (requestFrame op (posLayout p)) = p :=
  payload_of_bytes p

/-- The echo of `M` is its payload, read as a signed number. -/
theorem delivered_tableFrame_moveTo (p : Payload) : delivered (tableFrame (.moveTo p)) = .echoedTarget p.toInt := by
  rw [delivered_moveTo rfl, payloadI32, tableFrame, payload32_requestFrame_posLayout]

/-- The echo of `Z` is its payload, read as a signed number. -/
theorem delivered_tableFrame_calibrateTo (p : Payload) :
    delivered (tableFrame (.calibrateTo p)) = .echoedTarget p.toInt := by
  rw [delivered_calibrateTo rfl, payloadI32, tableFrame, payload32_requestFrame_posLayout]

/-- Settles O32: the echo is the payload as a signed number, and `t` is in the signed range. -/
theorem echoedTargetIsTheSignedTarget : Obligations.EchoedTargetIsTheSignedTarget := by
  intro t s hlo hhi
  have ht : (BitVec.ofInt 32 t).toInt = t := BitVec.toInt_ofInt_eq_self (by decide) hlo (by omega)
  exact ⟨echo_of_enc_is_delivered rfl (by rw [delivered_tableFrame_moveTo, ht]) s,
    echo_of_enc_is_delivered rfl (by rw [delivered_tableFrame_calibrateTo, ht]) s⟩

/-- The low byte of a payload of 24 upper bits, a direction bit and a speed is the direction and the speed (R45). -/
theorem low_byte_of_direction_and_speed (high : BitVec 24) (dir : BitVec 1) (speed : BitVec 7) :
    (high ++ dir ++ speed).extractLsb' 0 8 = dir ++ speed := by
  have happend : high ++ dir ++ speed = high ++ (dir ++ speed) := BitVec.append_assoc.trans (BitVec.cast_eq ..)
  rw [happend]
  exact BitVec.extractLsb'_append_eq_right

/-- The echo of `R` is the low byte `dir ++ speed` of its payload, split again into its two parts. -/
theorem delivered_tableFrame_moveWithSpeed {p : Payload} {dir : BitVec 1} {speed : BitVec 7}
    (h : p.extractLsb' 0 8 = dir ++ speed) :
    delivered (tableFrame (.moveWithSpeed p)) = .echoedSpeed (dir ++ speed) dir speed := by
  have hd : (tableFrame (.moveWithSpeed p)).d = dir ++ speed := h
  rw [delivered_moveWithSpeed rfl, dDir, dSpeed, hd]
  congr
  · exact BitVec.extractLsb'_append_eq_left
  · exact BitVec.extractLsb'_append_eq_right

/-- Settles O33: whatever the upper bits, the low byte is the direction and the speed. -/
theorem echoedSpeedIsTheRequestedSpeed : Obligations.EchoedSpeedIsTheRequestedSpeed := fun dir speed high s =>
  echo_of_enc_is_delivered rfl
    (delivered_tableFrame_moveWithSpeed (low_byte_of_direction_and_speed high dir speed)) s

end Sys2Proof
end

section
/-! PROOFS. The statements of 42_decode.md: DECODE and the DEC step (O17, O18, O19, O20, O24), the diagnostics (O13), the
two sentinel rows (O21, O22, O23), the views of DF (O25 to O28), and what a valid response delivers (O30, O31). -/

namespace Sys2Proof

open Machine

/-! ### DECODE and the DEC step -/

/-- Validity as an equation of bytes whose sum wraps. -/
theorem valid_iff_eq_sum (B : Frame) :
    valid B = true ↔ B.checksum = B.marker + B.opcode + B.a + B.b + B.c + B.d + B.reserved := by
  rw [valid_iff, checksum_eq_sum]

/-- Bytes whose byte 7 is not the wrapping sum are not valid. -/
theorem valid_eq_false_of_ne_sum {B : Frame}
    (h : B.checksum ≠ B.marker + B.opcode + B.a + B.b + B.c + B.d + B.reserved) : valid B = false :=
  Bool.eq_false_iff.mpr (mt (valid_iff_eq_sum B).mp h)

/-- Validity as an equation of numbers (R61). -/
theorem valid_iff_toNat (B : Frame) :
    valid B = true ↔ B.checksum.toNat = (B.marker.toNat + B.opcode.toNat + B.a.toNat + B.b.toNat + B.c.toNat
      + B.d.toNat + B.reserved.toNat) % 256 := by
  rw [valid_iff, ← BitVec.toNat_inj, checksum_toNat]

/-- Settles O17: on valid bytes DECODE returns them, on all others it fails. -/
theorem decodeSucceedsExactlyOnValidBytes : Obligations.DecodeSucceedsExactlyOnValidBytes := by
  refine fun B => ⟨⟨fun h => ?_, decodeFrame_of_valid⟩, fun h => ⟨decodeFrame_of_invalid h, checksum_ne_of_invalid h⟩⟩
  by_contra hv
  cases (decodeFrame_of_invalid (Bool.eq_false_iff.mpr hv)).symm.trans h

/-- Settles O18: DEC alone is the DEC operation; with ENC alone, or neither unit, DEC's registers are not written. -/
theorem decStepDeliversOrRaises : Obligations.DecStepDeliversOrRaises := by
  constructor
  · intro op p B s
    rw [runAction_drive_dec]
    obtain ⟨hv, ht⟩ | ⟨hv, ht⟩ := decStep_cases B s
    · rw [if_pos ((valid_iff_toNat B).mp hv)]
      exact ht
    · rw [if_neg (mt (valid_iff_toNat B).mpr (Bool.eq_false_iff.mp hv))]
      exact ht
  · rintro ⟨encStart, op, p, decStart, B⟩ s rfl
    cases encStart with
    | false => exact ⟨s, runAction_drive_none op p B s, rfl, rfl, rfl, rfl⟩
    | true =>
      obtain ⟨ef, encStatus, henc⟩ := encUnit_writes_own_registers op p
      exact ⟨_, (runAction_drive_enc op p B s).trans (henc s), rfl, rfl, rfl, rfl⟩

/-- Settles O19, by the DEC operation on valid bytes. -/
theorem decodeOfValidBytesCompletes : Obligations.DecodeOfValidBytesCompletes :=
  fun B s h => decStep_of_valid s ((valid_iff_eq_sum B).mpr h)

/-- Settles O20, by the DEC operation on bytes that are not valid. -/
theorem decodeOfInvalidBytesRaisesChecksumError : Obligations.DecodeOfInvalidBytesRaisesChecksumError := by
  intro B s h
  rw [← checksum_eq_sum]
  exact decStep_of_invalid s (valid_eq_false_of_ne_sum h)

/-- Settles O24: the DEC unit is the DEC operation on the bytes, and this asks for the checksum only. -/
theorem decChecksNothingButTheChecksum : Obligations.DecChecksNothingButTheChecksum :=
  ⟨fun _ _ _ _ _ _ _ s => (decUnit_eq _ s).trans (decodeOfValidBytesCompletes _ s rfl), decUnit_eq⟩

/-- Settles O13: the altered frame is not valid, and the checksum moved by the alteration while byte 7, the old
checksum, stayed. -/
theorem diagnosticsDifferByTheAlteration : Obligations.DiagnosticsDifferByTheAlteration := by
  intro F i v s hF hi hv
  have hG : valid (setByte F i v) = false := setByte_invalid hF hv
  have h7 : (setByte F i v).checksum = checksum F :=
    (byteAt_setByte_other F v (Ne.symm hi)).trans ((valid_iff_byteAt_7 F).mp hF)
  refine ⟨_, _, _, decStep_of_invalid s hG, rfl, rfl, ?_, checksum_ne_of_invalid hG⟩
  rw [h7, checksum_setByte_covered F hi, add_sub_cancel_left]

/-! ### The sentinel rows -/

/-- The checksum of a sentinel response: marker, opcode and payload bytes, the reserved byte adds nothing. -/
theorem checksum_sentinelFrame (op a b c d k : Byte) :
    checksum (sentinelFrame op a b c d k) = 0x4D + op + a + b + c + d :=
  (checksum_eq_sum _).trans (add_zero _)

/-- A sentinel response with its right checksum is delivered like any valid frame (R92). -/
theorem decStep_sentinelFrame_of_eq {op a b c d k : Byte} (h : k = 0x4D + op + a + b + c + d) (s : State) :
    decStep (sentinelFrame op a b c d k) s = .next (s.decDeliver (sentinelFrame op a b c d k)) :=
  decStep_of_valid s ((valid_iff _).mpr (h.trans (checksum_sentinelFrame op a b c d k).symm))

/-- A sentinel response with a wrong checksum raises ChecksumError like any other frame (R92, R136). -/
theorem decStep_sentinelFrame_of_ne {op a b c d k : Byte} (h : k ≠ 0x4D + op + a + b + c + d) (s : State) :
    decStep (sentinelFrame op a b c d k) s = .next (s.raise (.checksumError (0x4D + op + a + b + c + d) k)) := by
  rw [← checksum_sentinelFrame op a b c d k] at h ⊢
  exact decStep_of_invalid s (Bool.eq_false_iff.mpr (mt (valid_iff _).mp h))

theorem delivered_unrecognizedCommand {F : Frame} (h : F.opcode = opUnrecognizedCommand) :
    delivered F = .deviceUnrecognizedCommand := by
  rw [delivered, h]; rfl

theorem delivered_badChecksum {F : Frame} (h : F.opcode = opBadChecksum) : delivered F = .deviceBadChecksum := by
  rw [delivered, h]; rfl

/-- Settles O21: marker and opcode sum to `0x6E`. -/
theorem unrecognizedCommandResponseIsDelivered : Obligations.UnrecognizedCommandResponseIsDelivered :=
  fun _ _ _ _ s => ⟨decStep_sentinelFrame_of_eq (op := opUnrecognizedCommand) rfl s, delivered_unrecognizedCommand rfl⟩

/-- Settles O22: marker and opcode sum to `0x8C`. -/
theorem badChecksumResponseIsDelivered : Obligations.BadChecksumResponseIsDelivered :=
  fun _ _ _ _ s => ⟨decStep_sentinelFrame_of_eq (op := opBadChecksum) rfl s, delivered_badChecksum rfl⟩

/-- Settles O23: marker and opcode sum to `0x6E` and `0x8C`. -/
theorem sentinelResponsesWithABadChecksumRaise : Obligations.SentinelResponsesWithABadChecksumRaise :=
  fun _ _ _ _ _ s => ⟨fun h => decStep_sentinelFrame_of_ne (op := opUnrecognizedCommand) h s,
    fun h => decStep_sentinelFrame_of_ne (op := opBadChecksum) h s⟩

/-! ### The views of DF as numbers -/

/-- Settles O25: a named field and its index read the same field of the frame (R93). -/
theorem namedFieldsAreTheBytesOfDf : Obligations.NamedFieldsAreTheBytesOfDf :=
  fun _ => ⟨rfl, rfl, rfl, rfl, rfl, rfl, rfl, rfl, rfl, rfl, fun _ => rfl⟩

/-- In a concatenation the left part counts in units of the right part's range. -/
theorem append_toNat {m n : Nat} (x : BitVec m) (y : BitVec n) : (x ++ y).toNat = x.toNat * 2 ^ n + y.toNat := by
  rw [BitVec.toNat_append, ← Nat.shiftLeft_add_eq_or_of_lt y.isLt, Nat.shiftLeft_eq]

/-- The signed reading of a concatenation takes the sign of its left part. -/
theorem append_toInt {m n : Nat} (hm : m ≠ 0) (x : BitVec m) (y : BitVec n) :
    (x ++ y).toInt = x.toInt * 2 ^ n + y.toNat := by
  rw [BitVec.toInt_append, if_neg (by simpa using hm), mul_comm]

/-- The two's-complement reading of a byte (R95). -/
theorem byte_toInt (x : Byte) : x.toInt = x.toNat - (if 128 ≤ x.toNat then 2 ^ 8 else 0) := by
  rw [BitVec.toInt_eq_toNat_cond]
  split_ifs <;> omega

theorem payload32_toNat (F : Frame) :
    (payload32 F).toNat = F.a.toNat * 2 ^ 24 + F.b.toNat * 2 ^ 16 + F.c.toNat * 2 ^ 8 + F.d.toNat := by
  simp only [payload32, append_toNat]
  ring

theorem hi16_toNat (F : Frame) : (hi16 F).toNat = F.a.toNat * 2 ^ 8 + F.b.toNat := append_toNat _ _

theorem lo16_toNat (F : Frame) : (lo16 F).toNat = F.c.toNat * 2 ^ 8 + F.d.toNat := append_toNat _ _

/-- The two's-complement reading of two bytes (R96, R97). -/
theorem byte_append_byte_toInt (x y : Byte) :
    (x ++ y).toInt = x.toNat * 2 ^ 8 + y.toNat - (if 128 ≤ x.toNat then 2 ^ 16 else 0) := by
  rw [append_toInt (by decide), byte_toInt]
  split_ifs <;> ring

/-- The two's-complement reading of the four payload bytes (R95). -/
theorem payloadI32_eq (F : Frame) :
    payloadI32 F = F.a.toNat * 2 ^ 24 + F.b.toNat * 2 ^ 16 + F.c.toNat * 2 ^ 8 + F.d.toNat
      - (if 128 ≤ F.a.toNat then 2 ^ 32 else 0) := by
  rw [payloadI32, payload32, append_toInt (by decide), append_toInt (by decide), byte_append_byte_toInt]
  split_ifs <;> ring

theorem dBit0_toNat (F : Frame) : (dBit0 F).toNat = F.d.toNat % 2 := BitVec.extractLsb'_toNat ..

/-- The top bit of a byte is its quotient by 128, which is at most 1. -/
theorem dDir_toNat (F : Frame) : (dDir F).toNat = F.d.toNat / 128 := by
  rw [dDir, BitVec.extractLsb'_toNat, Nat.shiftRight_eq_div_pow]
  omega

theorem dSpeed_toNat (F : Frame) : (dSpeed F).toNat = F.d.toNat % 128 := BitVec.extractLsb'_toNat ..

section
variable {s : State} {F : Frame} (h : s.df = some F)
include h

theorem readOutput_payload32_of_df : readOutput .payload32 s = some ((payload32 F).toNat : Int) := by
  simp [readOutput, h]

theorem readOutput_payloadI32_of_df : readOutput .payloadI32 s = some (payloadI32 F) := by simp [readOutput, h]

theorem readOutput_hi16_of_df : readOutput .hi16 s = some ((hi16 F).toNat : Int) := by simp [readOutput, h]

theorem readOutput_hi16S_of_df : readOutput .hi16S s = some (hi16S F) := by simp [readOutput, h]

theorem readOutput_lo16_of_df : readOutput .lo16 s = some ((lo16 F).toNat : Int) := by simp [readOutput, h]

theorem readOutput_lo16S_of_df : readOutput .lo16S s = some (lo16S F) := by simp [readOutput, h]

theorem readOutput_dBit0_of_df : readOutput .dBit0 s = some ((dBit0 F).toNat : Int) := by simp [readOutput, h]

theorem readOutput_dDir_of_df : readOutput .dDir s = some ((dDir F).toNat : Int) := by simp [readOutput, h]

theorem readOutput_dSpeed_of_df : readOutput .dSpeed s = some ((dSpeed F).toNat : Int) := by simp [readOutput, h]

theorem readOutput_verMajor_of_df : readOutput .verMajor s = some (F.c.toNat : Int) :=
  readOutput_df_of_some h 4

theorem readOutput_verMinor_of_df : readOutput .verMinor s = some (F.d.toNat : Int) :=
  readOutput_df_of_some h 5

end

/-- Settles O26: M and Z have the POS layout, which PAYLOAD32 undoes. -/
theorem payload32IsBigEndianAndInvertsPos : Obligations.Payload32IsBigEndianAndInvertsPos := by
  refine ⟨fun F s h => ?_, fun op p F hop hF => ?_⟩
  · rw [readOutput_payload32_of_df h, payload32_toNat]
  · obtain rfl | rfl := hop <;> cases hF <;> exact payload32_requestFrame_posLayout _ p

/-- Settles O27: the ranges are those of any signed reading of the width, the numbers those of the bytes. -/
theorem signedViewsAreTwosComplement : Obligations.SignedViewsAreTwosComplement := by
  intro F s h
  refine ⟨⟨payloadI32 F, readOutput_payloadI32_of_df h, BitVec.le_toInt _, Int.le_sub_one_of_lt BitVec.toInt_lt,
      payloadI32_eq F⟩, ?_,
    ⟨hi16S F, readOutput_hi16S_of_df h, BitVec.le_toInt _, Int.le_sub_one_of_lt BitVec.toInt_lt,
      byte_append_byte_toInt F.a F.b⟩, ?_,
    ⟨lo16S F, readOutput_lo16S_of_df h, BitVec.le_toInt _, Int.le_sub_one_of_lt BitVec.toInt_lt,
      byte_append_byte_toInt F.c F.d⟩⟩
  · rw [readOutput_hi16_of_df h, hi16_toNat]
  · rw [readOutput_lo16_of_df h, lo16_toNat]

/-- Settles O28, by the value of each bit field of `d`. -/
theorem bitViewsSplitTheByteD : Obligations.BitViewsSplitTheByteD := by
  intro F s h
  rw [← dBit0_toNat, ← dDir_toNat, ← dSpeed_toNat]
  exact ⟨readOutput_dBit0_of_df h, readOutput_dDir_of_df h, readOutput_dSpeed_of_df h, readOutput_verMajor_of_df h,
    readOutput_verMinor_of_df h⟩

/-! ### What a valid response delivers -/

/-- Any other opcode byte, neither one of the ten nor a sentinel, is delivered as itself (R112). -/
theorem delivered_other {F : Frame} (henc : F.opcode ∉ encodableOpcodes) (hu : F.opcode ≠ opUnrecognizedCommand)
    (hb : F.opcode ≠ opBadChecksum) : delivered F = .otherOpcode F.opcode := by
  simp only [encodableOpcodes, List.mem_cons, List.not_mem_nil, or_false, not_or] at henc
  simp [delivered, henc, hu, hb]

/-- Settles O30: the delivery of each opcode, with its views written out in the bytes. -/
theorem responsesDeliverTheViewsOfTheirOpcode : Obligations.ResponsesDeliverTheViewsOfTheirOpcode :=
  fun _ s hv => ⟨_, decStep_of_valid s hv, rfl, rfl, delivered_readPosition, delivered_isMoving,
    delivered_isCalibrated, delivered_moveWithSpeed, delivered_park, delivered_readVersion⟩

/-- Settles O31: the twelve bytes of the statement are the ten ENC accepts and the two sentinels. -/
theorem echoesAndUnknownOpcodesAreDelivered : Obligations.EchoesAndUnknownOpcodesAreDelivered := by
  intro B s hv
  refine ⟨_, decStep_of_valid s hv, rfl, rfl, delivered_moveTo, delivered_calibrateTo, delivered_stop,
    delivered_readTemperature, fun h => ?_⟩
  obtain ⟨henc, hsent⟩ : B.opcode ∉ encodableOpcodes ∧ B.opcode ∉ [opUnrecognizedCommand, opBadChecksum] :=
    not_or.mp (mt List.mem_append.mpr h)
  obtain ⟨hu, hb⟩ : B.opcode ≠ opUnrecognizedCommand ∧ B.opcode ≠ opBadChecksum := by simpa using hsent
  refine ⟨delivered_other henc hu hb, fun p F hF => henc ?_⟩
  exact (mem_encodableOpcodes_iff B.opcode p).mpr ⟨F, hF⟩

end Sys2Proof
end

section
/-! PROOFS. The statements of 60_exceptions.md: what raising a fault writes (O34), how long a fault code stands (O35), and
the two faults raised in one step (O36). -/

namespace Sys2Proof

open Machine

/-! ### Raising a fault -/

/-- Settles O34: `raise` is the two cases of R134, and each fault's status shows the code 2. -/
theorem raisingAFaultWritesOnlyItsUnit : Obligations.RaisingAFaultWritesOnlyItsUnit :=
  fun _ _ _ _ => ⟨rfl, rfl, rfl, rfl⟩

/-! ### The unit's next operation and a reset overwrite the fault -/

/-- An ENC operation writes both registers that its unit's fault wrote, so it ends as if the fault had not been. -/
theorem encUnit_raise_unsupported (op op' : Byte) (p : Payload) (s : State) :
    encUnit op p (s.raise (.unsupportedOpcode op')) = encUnit op p s := by
  obtain ⟨ef, encStatus, henc⟩ := encUnit_writes_own_registers op p
  exact (henc _).trans (henc s).symm

/-- A DEC operation writes all four registers that its unit's fault wrote, so it ends as if the fault had not been. -/
theorem decUnit_raise_checksumError (B : Frame) (e x : Byte) (s : State) :
    decUnit B (s.raise (.checksumError e x)) = decUnit B s := by
  obtain ⟨df, decExpected, decActual, decStatus, hdec⟩ := decUnit_writes_own_registers B
  exact (hdec _).trans (hdec s).symm

/-- A reset writes every register of both units, so it leaves no trace of a fault of either (R150). -/
theorem resetUnits_raise (s : State) (f : BlockFault) : (s.raise f).resetUnits = s.resetUnits := by
  cases f <;> rfl

/-! ### Every other action leaves a unit's registers as they are -/

/-- Everything a completing action can be: a reset, a drive of the ports, or one that hands a number to the host. -/
theorem runAction_cases {act : HostAction} {s t : State} (ht : runAction act s = .next t) :
    act = .reset ∨ (∃ pins, act = .drive pins) ∨ ∃ v, t = s.handToHost v := by
  cases act with
  | reset => exact .inl rfl
  | drive pins => exact .inr (.inl ⟨pins, rfl⟩)
  | read what =>
    obtain ⟨v, -, hv⟩ | ⟨-, hr⟩ := hostRead_cases what s
    · cases hv.symm.trans ht
      exact .inr (.inr ⟨v, rfl⟩)
    · cases hr.symm.trans ht
  | evalChecksum B =>
    cases ht
    exact .inr (.inr ⟨_, rfl⟩)

/-- With `enc_start` not asserted at most a DEC operation runs, and ENC's registers are not written. -/
theorem drive_keeps_enc {pins : Pins} {s t : State} (hstart : pins.encStart = false)
    (ht : runAction (.drive pins) s = .next t) : t.encStatus = s.encStatus ∧ t.ef = s.ef := by
  obtain ⟨encStart, op, p, decStart, B⟩ := pins
  cases hstart
  cases decStart with
  | false =>
    cases (runAction_drive_none op p B s).symm.trans ht
    exact ⟨rfl, rfl⟩
  | true =>
    rw [runAction_drive_dec] at ht
    obtain ⟨-, hd⟩ | ⟨-, hd⟩ := decStep_cases B s <;> cases hd.symm.trans ht <;> exact ⟨rfl, rfl⟩

/-- With `dec_start` not asserted at most an ENC operation runs, and DEC's registers are not written. -/
theorem drive_keeps_dec {pins : Pins} {s t : State} (hstart : pins.decStart = false)
    (ht : runAction (.drive pins) s = .next t) :
    t.decStatus = s.decStatus ∧ t.df = s.df ∧ t.decExpected = s.decExpected ∧ t.decActual = s.decActual := by
  obtain ⟨encStart, op, p, decStart, B⟩ := pins
  cases hstart
  cases encStart with
  | false =>
    cases (runAction_drive_none op p B s).symm.trans ht
    exact ⟨rfl, rfl, rfl, rfl⟩
  | true =>
    rw [runAction_drive_enc] at ht
    obtain ⟨F, -, he⟩ | ⟨-, he⟩ := encUnit_cases op p s <;> cases he.symm.trans ht <;> exact ⟨rfl, rfl, rfl, rfl⟩

section
variable {act : HostAction} {s t : State} (ht : runAction act s = .next t) (hreset : act ≠ .reset)
include ht hreset

/-- ENC's registers change in an ENC operation or a reset only (R135, R156). -/
theorem runAction_keeps_enc (hstart : ∀ pins, act = .drive pins → pins.encStart = false) :
    t.encStatus = s.encStatus ∧ t.ef = s.ef := by
  obtain hr | ⟨pins, rfl⟩ | ⟨v, rfl⟩ := runAction_cases ht
  · exact absurd hr hreset
  · exact drive_keeps_enc (hstart pins rfl) ht
  · exact ⟨rfl, rfl⟩

/-- DEC's registers change in a DEC operation or a reset only (R135, R156). -/
theorem runAction_keeps_dec (hstart : ∀ pins, act = .drive pins → pins.decStart = false) :
    t.decStatus = s.decStatus ∧ t.df = s.df ∧ t.decExpected = s.decExpected ∧ t.decActual = s.decActual := by
  obtain hr | ⟨pins, rfl⟩ | ⟨v, rfl⟩ := runAction_cases ht
  · exact absurd hr hreset
  · exact drive_keeps_dec (hstart pins rfl) ht
  · exact ⟨rfl, rfl, rfl, rfl⟩

end

/-- Settles O35: the unit's own operation and a reset overwrite the fault's registers, every other action keeps them. -/
theorem faultsStayUntilOverwrittenAndAreNotSticky : Obligations.FaultsStayUntilOverwrittenAndAreNotSticky :=
  fun op op' e x p B s =>
    ⟨encUnit_raise_unsupported op op' p s, decUnit_raise_checksumError B e x s,
      congrArg Host.Outcome.next (resetUnits_raise s _), congrArg Host.Outcome.next (resetUnits_raise s _),
      fun _ _ ht hreset hstart => runAction_keeps_enc ht hreset hstart,
      fun _ _ ht hreset hstart => runAction_keeps_dec ht hreset hstart⟩

/-! ### Two faults in one step -/

/-- Settles O36: ENC's fault, then DEC's, which writes other registers; the ten bytes of the statement are
`encodableOpcodes`. -/
theorem twoFaultsInOneStepAreBothRecorded : Obligations.TwoFaultsInOneStepAreBothRecorded := by
  intro op p B s hop hB
  have henc : encUnit op p s = .next (s.raise (.unsupportedOpcode op)) :=
    encUnit_of_error (encodeFrame_of_not_encodable hop p) s
  exact (runAction_drive_both op p B henc).trans (decStep_of_invalid _ hB)

end Sys2Proof
end

section
/-! PROOFS. The statements of 70_reset_and_hazards.md: reset (O37), how long a result stands (O39), the host's reads (O42,
O52), and that runs go on (O51). -/

namespace Sys2Proof

open Machine

/-! ### Reset -/

/-- Settles O37: reset and power-up write these very registers. -/
theorem resetLeavesIdleStatusAndNoValues : Obligations.ResetLeavesIdleStatusAndNoValues :=
  ⟨fun _ => rfl, rfl, rfl, rfl, rfl, rfl, rfl⟩

/-! ### Starting operations -/

/-- Driving the ports completes from every state, whichever strobes are asserted, and takes no pending action. -/
theorem drive_completes (pins : Pins) (s : State) :
    ∃ t, runAction (.drive pins) s = .next t ∧ t.pending = s.pending := by
  obtain ⟨encStart, op, p, decStart, B⟩ := pins
  obtain ⟨ef, encStatus, henc⟩ := encUnit_writes_own_registers op p
  obtain ⟨df, decExpected, decActual, decStatus, hdec⟩ := decUnit_writes_own_registers B
  simp only [decUnit_eq] at hdec
  cases encStart <;> cases decStart
  case false.false => exact ⟨s, runAction_drive_none op p B s, rfl⟩
  case false.true => exact ⟨_, (runAction_drive_dec op p B s).trans (hdec s), rfl⟩
  case true.false => exact ⟨_, (runAction_drive_enc op p B s).trans (henc s), rfl⟩
  case true.true => exact ⟨_, (runAction_drive_both op p B (henc s)).trans (hdec _), rfl⟩

/-- Settles O39: only its unit's operation or a reset writes a result register, and an operation always completes. -/
theorem resultsLastUntilTheirUnitsNextOperation : Obligations.ResultsLastUntilTheirUnitsNextOperation := by
  refine ⟨fun act s t ht hreset => ⟨runAction_keeps_enc ht hreset, runAction_keeps_dec ht hreset⟩, fun pins s => ?_⟩
  obtain ⟨t, ht, -⟩ := drive_completes pins s
  exact ⟨t, ht⟩

/-! ### The host's reads -/

/-- Under the invariant an output has a number to show exactly if its tag holds (R12, R155). -/
theorem Inv.isSome_readOutput {s : State} (h : Inv s) (what : Output) :
    (readOutput what s).isSome = readAllowed what s := by
  rw [Bool.eq_iff_iff]
  cases what with
  | encStatus | decStatus => exact Iff.rfl
  | ef i => simpa [readOutput, readAllowed] using h.ef_tag.symm
  | decExpected => simpa [readOutput, readAllowed] using h.expected_tag.symm
  | decActual => simpa [readOutput, readAllowed] using h.actual_tag.symm
  | _ => simpa [readOutput, readAllowed] using h.df_tag.symm

/-- Settles O42: a read is answered exactly if the output has a number to show. -/
theorem readsAreAnsweredExactlyUnderTheTag : Obligations.ReadsAreAnsweredExactlyUnderTheTag := by
  intro what s h
  rw [← h.isSome_readOutput what]
  obtain ⟨v, hv, ht⟩ | ⟨hnone, hr⟩ := hostRead_cases what s
  · exact ⟨fun _ => ⟨v, hv, ht⟩, by simp [hv]⟩
  · exact ⟨by simp [hnone], fun _ => hr⟩

/-! ### What can stop a step -/

/-- A host action completes, and takes no pending action, unless it reads an output that has no number to show. -/
theorem runAction_completes {act : HostAction} {s : State}
    (hread : ∀ what, act = .read what → (readOutput what s).isSome = true) :
    ∃ t, runAction act s = .next t ∧ t.pending = s.pending := by
  cases act with
  | reset => exact ⟨_, rfl, rfl⟩
  | drive pins => exact drive_completes pins s
  | evalChecksum B => exact ⟨_, rfl, rfl⟩
  | read what =>
    obtain ⟨v, -, ht⟩ | ⟨hnone, -⟩ := hostRead_cases what s
    · exact ⟨_, ht, rfl⟩
    · simpa [hnone] using hread what rfl

/-- The tags do not read the host's list. -/
theorem readAllowed_withPending (what : Output) (s : State) (as : List HostAction) :
    readAllowed what (s.withPending as) = readAllowed what s := rfl

theorem nextReadAllowed_of_read {s : State} {what : Output} {rest : List HostAction}
    (h : s.pending = .read what :: rest) : nextReadAllowed s = readAllowed what s := by
  simp [nextReadAllowed, h]

/-- The next action is a forbidden read only if it is a read at all. -/
theorem pending_of_not_nextReadAllowed {s : State} (h : nextReadAllowed s = false) :
    ∃ what rest, s.pending = .read what :: rest := by
  unfold nextReadAllowed at h
  split at h
  · exact ⟨_, _, ‹_›⟩
  · cases h

/-- A step goes on if the next action is no forbidden read. -/
theorem step_of_nextReadAllowed {s : State} (hinv : Inv s) (h : nextReadAllowed s = true) :
    ∃ t, step s = .next t := by
  cases hp : s.pending with
  | nil => exact ⟨s, step_nil hp⟩
  | cons act rest =>
    have hread : ∀ what, act = .read what → (readOutput what (s.withPending rest)).isSome = true := by
      rintro what rfl
      rw [(hinv.withPending rest).isSome_readOutput, readAllowed_withPending, ← nextReadAllowed_of_read hp, h]
    obtain ⟨t, ht, -⟩ := runAction_completes hread
    exact ⟨t, (step_cons hp).trans ht⟩

/-- A step is refused by name if the next action is a forbidden read. -/
theorem step_of_not_nextReadAllowed {s : State} (hinv : Inv s) (h : nextReadAllowed s = false) :
    ∃ what, step s = .refused (.readOfNoValue what) := by
  obtain ⟨what, rest, hp⟩ := pending_of_not_nextReadAllowed h
  obtain ⟨-, hrefused⟩ := readsAreAnsweredExactlyUnderTheTag what _ (hinv.withPending rest)
  exact ⟨what, (step_cons hp).trans (hrefused ((nextReadAllowed_of_read hp).symm.trans h))⟩

/-- Settles O52: the two outcomes exclude each other, and so do the two conditions. -/
theorem onlyAForbiddenReadIsRefused : Obligations.OnlyAForbiddenReadIsRefused := by
  intro s hinv
  cases h : nextReadAllowed s with
  | true =>
    obtain ⟨t, ht⟩ := step_of_nextReadAllowed hinv h
    simp [ht]
  | false =>
    obtain ⟨what, hr⟩ := step_of_not_nextReadAllowed hinv h
    simp [hr]

/-! ### Runs -/

/-- A host that reads status registers at most begins with no other read and goes on reading status registers at most. -/
theorem readsStatusOnly_cons {act : HostAction} {rest : List HostAction} (h : readsStatusOnly (act :: rest) = true) :
    (∀ what, act = .read what → what = .encStatus ∨ what = .decStatus) ∧ readsStatusOnly rest = true := by
  obtain ⟨hact, hrest⟩ := (Bool.and_eq_true _ _).mp ((List.all_cons ..).symm.trans h)
  refine ⟨?_, hrest⟩
  rintro what rfl
  cases what with
  | encStatus => exact .inl rfl
  | decStatus => exact .inr rfl
  | _ => cases hact

/-- A step of a host that reads status registers at most completes and does the first of its actions: a status register
always has a number to show (R25). -/
theorem step_of_readsStatusOnly {s : State} (h : readsStatusOnly s.pending = true) :
    ∃ t, step s = .next t ∧ t.pending = s.pending.tail ∧ readsStatusOnly t.pending = true := by
  cases hp : s.pending with
  | nil => exact ⟨s, step_nil hp, hp, h⟩
  | cons act rest =>
    obtain ⟨hstatus, hrest⟩ := readsStatusOnly_cons (hp ▸ h)
    have hread : ∀ what, act = .read what → (readOutput what (s.withPending rest)).isSome = true := by
      intro what hact
      obtain rfl | rfl := hstatus what hact <;> rfl
    obtain ⟨t, ht, htp⟩ := runAction_completes hread
    rw [withPending_pending] at htp
    exact ⟨t, (step_cons hp).trans ht, htp, htp ▸ hrest⟩

/-- The first of `k + 1` steps, when it completes. -/
theorem run_succ_of_step {s t : State} (h : step s = .next t) (k : Nat) : core.run (k + 1) s = core.run k t := by
  have hcore : core.step s = .next t := h
  simp only [Host.Core.run, hcore]

/-- Settles O51, by induction on the number of steps. -/
theorem runsNeverHalt : Obligations.RunsNeverHalt := by
  intro k
  induction k with
  | zero => exact fun s _ => ⟨s, rfl, rfl⟩
  | succ k ih =>
    intro s h
    obtain ⟨t, ht, htp, hstatus⟩ := step_of_readsStatusOnly h
    obtain ⟨u, hu, hup⟩ := ih t hstatus
    exact ⟨u, (run_succ_of_step ht k).trans hu, by rw [hup, htp, List.drop_tail]⟩

end Sys2Proof
end
